-- ==== Sys2Proof/Word.lean ====
section
/-! DEFINITION. Word types of the block: the 32-bit output word, the byte of the boundary to the transport, the single
wire, and the carriers of the widths that rule R6 (section 4.2) names, at their stated values. Plain abbreviations, so
that every `BitVec` lemma applies. The widths themselves are fields of `Config` (`wHz`, `wInt`, `wFrac`, `wMod`);
`Laws/Config.lean` shows that each carrier is as wide as the stated value of its field. -/

namespace Sys2Proof

/-- One of the six 32-bit words (`10_state.md` R40). -/
abbrev Word := BitVec 32

/-- One byte of the serialised form (`20_memory.md` R66). -/
abbrev Byte := BitVec 8

/-- One 1-bit port or flag field (`10_state.md` R22, R35). -/
abbrev Bit := BitVec 1

/-- A frequency in Hz, `W_HZ` = 64 bits (`00_scope.md` R6, `10_state.md` R30, R36). -/
abbrev Hz := BitVec 64

/-- `W_INT` = 70 bits: `SET.INT` and `STATUS.value` (`00_scope.md` R6, `10_state.md` R39, R43). -/
abbrev Wide := BitVec 70

/-- `W_FRAC` = 64 bits: `SET.FRAC` (`00_scope.md` R6, `10_state.md` R39). -/
abbrev FracReg := BitVec 64

/-- `W_MOD` = 64 bits: `SET.MOD` (`00_scope.md` R6, `10_state.md` R39). -/
abbrev ModReg := BitVec 64

end Sys2Proof
end

