-- ==== Sys2Proof/Config.lean ====
section
/-! DEFINITION. What an implementation fixes: the named constants and parameters of rule R6, the record of their stated
values, the facts a configuration must keep (R174 and the field widths), the open latencies, and the free values that
stand for the contents of a register group that holds no value. -/

namespace Sys2Proof

/-- How `8 * pfd_MHz` becomes an integer: the three admitted values of `BSC_ROUNDING` (`00_scope.md` R6,
`41_solver.md` R144). -/
inductive BscRounding where
  | floorOfProduct
  | productOfFloor
  | ceilOfProduct
  deriving DecidableEq, Repr

/-! The latencies of the two operations, in clock cycles: OPEN, and no rule depends on them (`00_scope.md` R6,
`70_reset_and_hazards.md` R262, D31). They have no body, so nothing can be proved of them (log entry 11). -/

/-- The open value of `T_SOLVE`. -/
opaque Config.openTSolve : Nat
/-- The open value of `T_PACK`. -/
opaque Config.openTPack : Nat

/-- The configuration argument of rule R6: one field for every name of its two tables. The functions of the solver, the
LUT encoder and the packer take it, and so do the commands and the step of the machine under a configuration
(`Machine/Configured.lean`). -/
structure Config where
  /-- `VCO_MAX_HZ` -/
  vcoMaxHz : Nat
  /-- `OUTDIV_MAX_EXP` -/
  outdivMaxExp : Nat
  /-- `N_SCALE` -/
  nScale : Nat
  /-- `PFD_FRAC_MAX_HZ` -/
  pfdFracMaxHz : Nat
  /-- `PFD_INT_MAX_HZ` -/
  pfdIntMaxHz : Nat
  /-- `BSC_LOW_SCALE` -/
  bscLowScale : Nat
  /-- `BSC_HIGH_SCALE`: named, and used by no formula (R144, `93_implementation_defined.md` U6). -/
  bscHighScale : Nat
  /-- `BSC_DIV_CAP` -/
  bscDivCap : Nat
  /-- `BSC_MAX_HZ` -/
  bscMaxHz : Nat
  /-- `BSC_VARIANT_MAX_HZ` -/
  bscVariantMaxHz : Nat
  /-- `INT_MAX` -/
  intMax : Nat
  /-- `FRAC_MAX` -/
  fracMax : Nat
  /-- `MOD_MAX` -/
  modMax : Nat
  /-- `OUTDIV_SEL_MAX` -/
  outdivSelMax : Nat
  /-- `R5_RESERVED` -/
  r5Reserved : Nat
  /-- `ABP_TABLE`, in ns, entry 0 first -/
  abpTable : List Nat
  /-- `CP_TABLE`, in 0.01 mA, entry 0 first -/
  cpTable : List Nat
  /-- `PWR_TABLE`, in dBm, entry 0 first -/
  pwrTable : List Int
  /-- `ABP_DEFAULT_INDEX` -/
  abpDefaultIndex : Nat
  /-- `CP_TABLE_LEN` -/
  cpTableLen : Nat
  /-- `PWR_TABLE_LEN` -/
  pwrTableLen : Nat
  /-- `W_HZ`: how many bits a frequency has (D4) -/
  wHz : Nat
  /-- `W_INT`: how many bits `SET.INT` and `STATUS.value` have (D5) -/
  wInt : Nat
  /-- `W_FRAC`: how many bits `SET.FRAC` has (D5) -/
  wFrac : Nat
  /-- `W_MOD`: how many bits `SET.MOD` has (D5) -/
  wMod : Nat
  /-- `BSC_ROUNDING` -/
  bscRounding : BscRounding
  /-- `T_SOLVE`, in clock cycles; no rule depends on it (D31) -/
  tSolve : Nat
  /-- `T_PACK`, in clock cycles; no rule depends on it (D31) -/
  tPack : Nat
  deriving DecidableEq, Repr

/-- The stated values of rule R6 (the defaults of `92_eei_decisions.md` section 5). The fourteen inner entries of
`cpTable` and all of `pwrTable` are PRESUMED: the spec marks them as general knowledge (log entry 5). The two latencies
have no stated value and are the open constants. -/
def Config.standard : Config where
  vcoMaxHz := 2200000000
  outdivMaxExp := 6
  nScale := 1000
  pfdFracMaxHz := 32000000
  pfdIntMaxHz := 90000000
  bscLowScale := 8
  bscHighScale := 2
  bscDivCap := 255
  bscMaxHz := 500000
  bscVariantMaxHz := 125000000
  intMax := 65535
  fracMax := 4095
  modMax := 4095
  outdivSelMax := 6
  r5Reserved := 3
  abpTable := [10, 6]
  cpTable := [31, 63, 94, 125, 156, 188, 219, 250, 281, 313, 344, 375, 406, 438, 469, 500]
  pwrTable := [-4, -1, 2, 5]
  abpDefaultIndex := 0
  cpTableLen := 16
  pwrTableLen := 4
  wHz := 64
  wInt := 70
  wFrac := 64
  wMod := 64
  bscRounding := .floorOfProduct
  tSolve := Config.openTSolve
  tPack := Config.openTPack

/-- The facts of the document that a configuration must keep (`42_lut_encoder.md` R174, `92_eei_decisions.md` D19), and
the bounds without which a value would not fit its field or a quotient by a constant would not exist. The widths may be
any that fit the carriers of `Word.lean` and that lose no bit, by the derivation of `41_solver.md` R149 (log entry 6).
-/
structure Config.Ok (c : Config) : Prop where
  cpLength : c.cpTable.length = c.cpTableLen
  cpTableLen : c.cpTableLen = 16
  cpFirst : c.cpTable[0]? = some 31
  cpLast : c.cpTable[15]? = some 500
  cpThreeMilliamp : 300 ∉ c.cpTable
  abp : c.abpTable = [10, 6]
  pwrLength : c.pwrTable.length = c.pwrTableLen
  pwrTableLen : c.pwrTableLen = 4
  pwrNodup : c.pwrTable.Nodup
  nScale : 0 < c.nScale
  outdivExp : c.outdivMaxExp ≤ 6
  divCap : c.bscDivCap ≤ 255
  intMax : c.intMax ≤ 65535
  fracMax : c.fracMax ≤ 4095
  modMax : c.modMax ≤ 4095
  outdivSel : c.outdivSelMax ≤ 7
  /-- Word 5 has the value in its fixed bits (`30_encoding.md` R88). -/
  reserved : c.r5Reserved = 3
  bscOrder : c.bscMaxHz ≤ c.bscVariantMaxHz
  hzCarrier : c.wHz ≤ 64
  intCarrier : c.wInt ≤ 70
  fracCarrier : c.wFrac ≤ 64
  modCarrier : c.wMod ≤ 64
  /-- INT is at most `2^OUTDIV_MAX_EXP` times a frequency (R149). -/
  intFits : c.wHz + c.outdivMaxExp ≤ c.wInt
  /-- FRAC is at most MOD0, which is at most a frequency (R149). -/
  fracFits : c.wHz ≤ c.wFrac
  /-- MOD is at most a frequency, or 2 (R149). -/
  modFits : c.wHz ≤ c.wMod
  modTwo : 2 ≤ c.wMod
  /-- `STATUS.value` holds any payload: a PFD frequency of one bit more than a frequency, FRAC, MOD, and the 16 bits of
  a looked-up input (R149, `60_exceptions.md` R223). -/
  pfdPayload : c.wHz + 1 ≤ c.wInt
  fracPayload : c.wFrac ≤ c.wInt
  modPayload : c.wMod ≤ c.wInt
  lookupPayload : 16 ≤ c.wInt

/-! The free values (log entry 2). While a valid flag is 0 its registers hold no value and a model must not depend on
their bits (`10_state.md` R42, `93_implementation_defined.md` U12). After a command that ends with such a register
group, its bits are one of these constants applied to the model's counter: they have no body, so nothing can be proved
of them. -/

/-- Free bits of `SET.INT`. -/
opaque Config.freeInt : Nat → Wide
/-- Free bits of `SET.FRAC`. -/
opaque Config.freeFrac : Nat → FracReg
/-- Free bits of `SET.MOD`. -/
opaque Config.freeMod : Nat → ModReg
/-- Free bits of `SET.OUTDIV`. -/
opaque Config.freeOutdiv : Nat → BitVec 8
/-- Free bits of `SET.BSCDIV`. -/
opaque Config.freeBscdiv : Nat → BitVec 8
/-- Free bits of `REG[i]`: the counter first, then the index. -/
opaque Config.freeWord : Nat → Nat → Word

end Sys2Proof
end

