-- ==== Sys2Proof/Syntax.lean ====
section
/-! DEFINITION. The rows of `spec/opcode_table.json`, one constructor each: the four commands of the 2-bit command port
(`30_encoding.md` R81) and the seven 32-bit word formats that stand in the place of instruction formats (R80, R83 to
R88), each with its fields in the table's order. -/

namespace Sys2Proof

/-- One row of the opcode table. A command has no field (its operands are ports and state). A word format carries the
fields of the word; the fixed bits are not fields. -/
inductive Instr where
  /-- `NOP`, `cmd = 00` (`40_commands.md` R112). -/
  | nop
  /-- `SOLVE`, `cmd = 01` (`41_solver.md` R130). -/
  | solve
  /-- `PACK`, `cmd = 10` (`43_packer.md` R185). -/
  | pack
  /-- `LDSET`, `cmd = 11` (`40_commands.md` R114). -/
  | ldset
  /-- Format `R0` (R83, R198). -/
  | r0 (int : BitVec 16) (frac : BitVec 12)
  /-- Format `R1` (R84, R199). -/
  | r1 (phaseNz presc89 phaseZ : Bit) (mod : BitVec 12)
  /-- Format `R2` (R85, R200). -/
  | r2 (noiseMode : BitVec 2) (muxout : BitVec 3) (refDbl refHalf : Bit) (rCounter : BitVec 10) (dblBuf : Bit)
      (cpIdx : BitVec 4) (fracNz abpNdef pdPol pwrDn cpTri cntRst : Bit)
  /-- Format `R3_LEGACY` (R86, R201 with `opt.variant = 0`). -/
  | r3Legacy (csr : Bit) (clkdivMode : BitVec 2) (clkdivVal : BitVec 12)
  /-- Format `R3_FULL` (R86, R201 with `opt.variant = 1`). -/
  | r3Full (bscMode abpIdx chgCancel csr : Bit) (clkdivMode : BitVec 2) (clkdivVal : BitVec 12)
  /-- Format `R4` (R87, R202). -/
  | r4 (fbSel : Bit) (outdivSel : BitVec 3) (bscDiv : BitVec 8) (vcoPd mtld auxSel auxEn : Bit) (auxPwr : BitVec 2)
      (outEn : Bit) (outPwr : BitVec 2)
  /-- Format `R5` (R88, R203). -/
  | r5 (ldPin : BitVec 2)
  deriving DecidableEq, Repr

end Sys2Proof
end

