-- ==== Sys2Proof/WellFormed.lean ====
section
/-! DEFINITION. Which terms of `Instr` a block of a given variant can show: the variant decides the format of word 3
(`30_encoding.md` R92), and two field values are never produced (R91). -/

namespace Sys2Proof

/-- The format of word 3 fits the variant port (R92, R96): `R3_LEGACY` is read on `LEGACY` (`v = 0`); `R3_FULL` is read
on `FULL`, and on either variant when one of its three extra fields is set, since no `R3_LEGACY` word has them set.
Every other format is read on both variants. -/
def Instr.formatOk (v : Bit) : Instr → Bool
  | .nop => true
  | .solve => true
  | .pack => true
  | .ldset => true
  | .r0 _ _ => true
  | .r1 _ _ _ _ => true
  | .r2 _ _ _ _ _ _ _ _ _ _ _ _ _ => true
  | .r3Legacy _ _ _ => v == 0#1
  | .r3Full bscMode abpIdx chgCancel _ _ _ => v == 1#1 || bscMode == 1#1 || abpIdx == 1#1 || chgCancel == 1#1
  | .r4 _ _ _ _ _ _ _ _ _ _ => true
  | .r5 _ => true

/-- Field values that a word of the packer can have (R91): in `R1` exactly one of bits 28 and 15 is set, and
`OUTDIV_SEL` is never 7. -/
def Instr.produced : Instr → Bool
  | .nop => true
  | .solve => true
  | .pack => true
  | .ldset => true
  | .r0 _ _ => true
  | .r1 phaseNz _ phaseZ _ => phaseNz != phaseZ
  | .r2 _ _ _ _ _ _ _ _ _ _ _ _ _ => true
  | .r3Legacy _ _ _ => true
  | .r3Full _ _ _ _ _ _ => true
  | .r4 _ outdivSel _ _ _ _ _ _ _ _ => outdivSel != 7#3
  | .r5 _ => true

/-- Well-formed on a block whose variant port is `v`. -/
def Instr.wellFormed (v : Bit) (i : Instr) : Bool := i.formatOk v && i.produced

end Sys2Proof
end

