-- ==== Sys2Proof/Decode.lean ====
section
/-! DEFINITION. The decoder and, after it, the encoder, from the tables of `30_encoding.md` (R81, R83 to R88) and the
reader's recipe of R96: bits [2:0] and the fixed bits pick the row, then the fields are sliced. What the block shows
in a step is a list of bytes: one byte for the command port (its 2 bits in the low end), four bytes for a word, most
significant byte first (`20_memory.md` R66). -/

namespace Sys2Proof

/-- Why bytes are no row of the table. Every one of these is safe: the model stops, and no word that the packer
produces is refused (`30_encoding.md` R90). -/
inductive DecodeError where
  /-- Neither one byte nor four. -/
  | badLength (n : Nat)
  /-- One byte with a bit above the 2-bit command port set. -/
  | beyondCommandPort (b : Byte)
  /-- Address 6 or 7 in bits [2:0] (R91). -/
  | noSuchAddress (address : BitVec 3)
  /-- A fixed bit of the format of this address differs (R90). -/
  | fixedBits (address : BitVec 3)
  deriving DecidableEq, Repr

/-- The field of `width` bits whose lowest bit is bit `lo` (`00_scope.md` R7: "field (k bits) at bit n"). -/
def field (w : Word) (lo width : Nat) : BitVec width := w.extractLsb' lo width

/-- The four bytes of a word, most significant first (`20_memory.md` R66). -/
def wordBytes (w : Word) : List Byte := [field w 24 8, field w 16 8, field w 8 8, field w 0 8]

/-- The word whose bytes, most significant first, are these four (R66 read the other way). -/
def wordOfBytes (b3 b2 b1 b0 : Byte) : Word := b3 ++ b2 ++ b1 ++ b0

/-! The fixed bits of each row (R83 to R88, R90): the bits that `mask` selects, as fields, equal to those of `match`. -/

/-- `R0`: mask `0x80000007`, match `0x00000000`. -/
def fixedR0 (w : Word) : Bool := field w 31 1 == 0#1 && field w 0 3 == 0#3

/-- `R1`: mask `0xE7FF0007`, match `0x00000001`. -/
def fixedR1 (w : Word) : Bool := field w 29 3 == 0#3 && field w 16 11 == 0#11 && field w 0 3 == 1#3

/-- `R2`: mask `0x80000007`, match `0x00000002`. -/
def fixedR2 (w : Word) : Bool := field w 31 1 == 0#1 && field w 0 3 == 2#3

/-- `R3_LEGACY`: mask `0xFFFA0007`, match `0x00000003`. -/
def fixedR3Legacy (w : Word) : Bool := field w 19 13 == 0#13 && field w 17 1 == 0#1 && field w 0 3 == 3#3

/-- `R3_FULL`: mask `0xFF1A0007`, match `0x00000003`. -/
def fixedR3Full (w : Word) : Bool :=
  field w 24 8 == 0#8 && field w 19 2 == 0#2 && field w 17 1 == 0#1 && field w 0 3 == 3#3

/-- `R4`: mask `0xFF000007`, match `0x00000004`. -/
def fixedR4 (w : Word) : Bool := field w 24 8 == 0#8 && field w 0 3 == 4#3

/-- `R5`: mask `0xFF3FFFFF`, match `0x00180005`. -/
def fixedR5 (w : Word) : Bool := field w 24 8 == 0#8 && field w 0 22 == 0x180005#22

/-- The command that the 2-bit port names (R81). All four codes are assigned. -/
def decodeCommand (cmd : BitVec 2) : Instr :=
  if cmd = 0b00#2 then .nop
  else if cmd = 0b01#2 then .solve
  else if cmd = 0b10#2 then .pack
  else .ldset

/-- The format of a word and its fields, row by row of the table (R83 to R88, R96). Word 3 is read as `R3_LEGACY` on
`LEGACY` (`v = 0`) when its fixed bits allow it, and otherwise as `R3_FULL`, "which accepts every word R3_LEGACY
does". -/
def decodeWord (v : Bit) (w : Word) : Except DecodeError Instr :=
  if fixedR0 w then
    .ok (.r0 (field w 15 16) (field w 3 12))
  else if fixedR1 w then
    .ok (.r1 (field w 28 1) (field w 27 1) (field w 15 1) (field w 3 12))
  else if fixedR2 w then
    .ok (.r2 (field w 29 2) (field w 26 3) (field w 25 1) (field w 24 1) (field w 14 10) (field w 13 1) (field w 9 4)
      (field w 8 1) (field w 7 1) (field w 6 1) (field w 5 1) (field w 4 1) (field w 3 1))
  else if v == 0#1 && fixedR3Legacy w then
    .ok (.r3Legacy (field w 18 1) (field w 15 2) (field w 3 12))
  else if fixedR3Full w then
    .ok (.r3Full (field w 23 1) (field w 22 1) (field w 21 1) (field w 18 1) (field w 15 2) (field w 3 12))
  else if fixedR4 w then
    .ok (.r4 (field w 23 1) (field w 20 3) (field w 12 8) (field w 11 1) (field w 10 1) (field w 9 1) (field w 8 1)
      (field w 6 2) (field w 5 1) (field w 3 2))
  else if fixedR5 w then
    .ok (.r5 (field w 22 2))
  else if 5#3 < field w 0 3 then .error (.noSuchAddress (field w 0 3))
  else .error (.fixedBits (field w 0 3))

/-- What bytes on the block's ports stand for, on a block whose variant port is `v`. Total. -/
def decode (v : Bit) : List Byte → Except DecodeError Instr
  | [b] => if field (b.setWidth 32) 2 6 = 0#6 then .ok (decodeCommand (b.setWidth 2)) else .error (.beyondCommandPort b)
  | [b3, b2, b1, b0] => decodeWord v (wordOfBytes b3 b2 b1 b0)
  | bs => .error (.badLength bs.length)

/-! The encoder: each word written from its table, top bit first, unassigned bits 0 (R82). -/

/-- Format `R0`: `0 INT FRAC 000` (R83). -/
def encodeR0 (int : BitVec 16) (frac : BitVec 12) : Word :=
  0#1 ++ int ++ frac ++ 0b000#3

/-- Format `R1`: `000 PHASE_NZ PRESC_89 0(11) PHASE_Z MOD 001` (R84). -/
def encodeR1 (phaseNz presc89 phaseZ : Bit) (mod : BitVec 12) : Word :=
  0#3 ++ phaseNz ++ presc89 ++ 0#11 ++ phaseZ ++ mod ++ 0b001#3

/-- Format `R2` (R85). -/
def encodeR2 (noiseMode : BitVec 2) (muxout : BitVec 3) (refDbl refHalf : Bit) (rCounter : BitVec 10) (dblBuf : Bit)
    (cpIdx : BitVec 4) (fracNz abpNdef pdPol pwrDn cpTri cntRst : Bit) : Word :=
  0#1 ++ noiseMode ++ muxout ++ refDbl ++ refHalf ++ rCounter ++ dblBuf ++ cpIdx ++ fracNz ++ abpNdef ++ pdPol ++
    pwrDn ++ cpTri ++ cntRst ++ 0b010#3

/-- Format `R3_LEGACY` (R86). -/
def encodeR3Legacy (csr : Bit) (clkdivMode : BitVec 2) (clkdivVal : BitVec 12) : Word :=
  0#13 ++ csr ++ 0#1 ++ clkdivMode ++ clkdivVal ++ 0b011#3

/-- Format `R3_FULL` (R86). -/
def encodeR3Full (bscMode abpIdx chgCancel csr : Bit) (clkdivMode : BitVec 2) (clkdivVal : BitVec 12) : Word :=
  0#8 ++ bscMode ++ abpIdx ++ chgCancel ++ 0#2 ++ csr ++ 0#1 ++ clkdivMode ++ clkdivVal ++ 0b011#3

/-- Format `R4` (R87). -/
def encodeR4 (fbSel : Bit) (outdivSel : BitVec 3) (bscDiv : BitVec 8) (vcoPd mtld auxSel auxEn : Bit)
    (auxPwr : BitVec 2) (outEn : Bit) (outPwr : BitVec 2) : Word :=
  0#8 ++ fbSel ++ outdivSel ++ bscDiv ++ vcoPd ++ mtld ++ auxSel ++ auxEn ++ auxPwr ++ outEn ++ outPwr ++ 0b100#3

/-- Format `R5`: `00000000 LD_PIN 0 11 0(16) 101` (R88). -/
def encodeR5 (ldPin : BitVec 2) : Word :=
  0#8 ++ ldPin ++ 0#1 ++ 0b11#2 ++ 0#16 ++ 0b101#3

/-- The bytes of a row: one byte for a command, four for a word. -/
def encode : Instr → List Byte
  | .nop => [0b00#8]
  | .solve => [0b01#8]
  | .pack => [0b10#8]
  | .ldset => [0b11#8]
  | .r0 int frac => wordBytes (encodeR0 int frac)
  | .r1 phaseNz presc89 phaseZ mod => wordBytes (encodeR1 phaseNz presc89 phaseZ mod)
  | .r2 noiseMode muxout refDbl refHalf rCounter dblBuf cpIdx fracNz abpNdef pdPol pwrDn cpTri cntRst =>
    wordBytes (encodeR2 noiseMode muxout refDbl refHalf rCounter dblBuf cpIdx fracNz abpNdef pdPol pwrDn cpTri cntRst)
  | .r3Legacy csr clkdivMode clkdivVal => wordBytes (encodeR3Legacy csr clkdivMode clkdivVal)
  | .r3Full bscMode abpIdx chgCancel csr clkdivMode clkdivVal =>
    wordBytes (encodeR3Full bscMode abpIdx chgCancel csr clkdivMode clkdivVal)
  | .r4 fbSel outdivSel bscDiv vcoPd mtld auxSel auxEn auxPwr outEn outPwr =>
    wordBytes (encodeR4 fbSel outdivSel bscDiv vcoPd mtld auxSel auxEn auxPwr outEn outPwr)
  | .r5 ldPin => wordBytes (encodeR5 ldPin)

/-- The bytes of an item of the opcode table whose bits are `w`: a row of at most 8 bits is the command port, a longer
one is a word, laid out as the host receives it (R66). -/
def tableBytes (nbits w : Nat) : List Byte :=
  if nbits ≤ 8 then [BitVec.ofNat 8 w] else wordBytes (BitVec.ofNat 32 w)

/-- The instruction the decoder reads from a table item. No variant port is given with it, so word 3 is read on
`LEGACY`, where every word of both formats decodes (R92, R96; log entry 9). -/
def decodeTableWord (nbits w : Nat) : Option Instr :=
  if w < 2 ^ (if nbits ≤ 8 then 8 else 32) then (decode 0#1 (tableBytes nbits w)).toOption else none

end Sys2Proof
end

