-- ==== Sys2Proof/Machine/State.lean ====
section
/-! DEFINITION. The machine as plain data: the input ports the host drives (`10_state.md` R21 to R38), the block's own
state (R39 to R43), and three fields of the model's own. The stops of a step, and the machine after reset. -/

namespace Sys2Proof.Machine

/-- The 33 Options ports, in the order and with the widths of `10_state.md` R22. The host drives them, no command
writes them (R21). -/
structure Options where
  /-- `opt.variant`: 0 `LEGACY`, 1 `FULL` (R23) -/
  variant : Bit
  /-- `opt.fb_sel`: 0 divided, 1 fundamental (R24) -/
  fbSel : Bit
  /-- `opt.bsc_mode`: 0 low, 1 high (R25) -/
  bscMode : Bit
  /-- `opt.bsc_div_in`: 0 is not set (R26) -/
  bscDivIn : BitVec 8
  /-- `opt.noise_mode` (R27) -/
  noiseMode : BitVec 2
  /-- `opt.muxout` (R28) -/
  muxout : BitVec 3
  /-- `opt.pd_pol` (R28) -/
  pdPol : Bit
  /-- `opt.clkdiv_mode` (R28) -/
  clkdivMode : BitVec 2
  /-- `opt.clkdiv_val` -/
  clkdivVal : BitVec 12
  /-- `opt.aux_sel` (R28) -/
  auxSel : Bit
  /-- `opt.aux_en` (R35) -/
  auxEn : Bit
  /-- `opt.ld_pin` (R28) -/
  ldPin : BitVec 2
  /-- `opt.presc_89` (R33) -/
  presc89 : Bit
  /-- `opt.out_pwr`, two's complement dBm (R34) -/
  outPwr : BitVec 8
  /-- `opt.aux_pwr`, two's complement dBm (R34) -/
  auxPwr : BitVec 8
  /-- `opt.ref_hz` (R30) -/
  refHz : Hz
  /-- `opt.spacing_hz` (R30) -/
  spacingHz : Hz
  /-- `opt.r_counter` (R29) -/
  rCounter : BitVec 10
  /-- `opt.ref_dbl` (R29) -/
  refDbl : Bit
  /-- `opt.ref_half` (R29) -/
  refHalf : Bit
  /-- `opt.cp_current`, in 0.01 mA (R31) -/
  cpCurrent : BitVec 16
  /-- `opt.abp_width`, in ns (R32) -/
  abpWidth : BitVec 8
  /-- `opt.phase` (R33) -/
  phase : BitVec 12
  /-- `opt.gcd_en` (R30) -/
  gcdEn : Bit
  /-- `opt.dbl_buf` (R35) -/
  dblBuf : Bit
  /-- `opt.pwr_dn` (R35) -/
  pwrDn : Bit
  /-- `opt.cp_tri` (R35) -/
  cpTri : Bit
  /-- `opt.cnt_rst` (R35) -/
  cntRst : Bit
  /-- `opt.chg_cancel` (R35) -/
  chgCancel : Bit
  /-- `opt.csr` (R35) -/
  csr : Bit
  /-- `opt.vco_pd` (R35) -/
  vcoPd : Bit
  /-- `opt.mtld` (R35) -/
  mtld : Bit
  /-- `opt.out_en` (R35) -/
  outEn : Bit
  deriving DecidableEq, Repr

/-- One Settings value: the shape of `SET` and of the `set_in` ports (`10_state.md` R37, R39). -/
structure Settings where
  /-- `INT`, 70 bits -/
  int : Wide
  /-- `FRAC`, 64 bits -/
  frac : FracReg
  /-- `MOD`, 64 bits -/
  mod : ModReg
  /-- `OUTDIV`, the divider itself, 8 bits -/
  outdiv : BitVec 8
  /-- `BSCDIV`, 8 bits -/
  bscdiv : BitVec 8
  deriving DecidableEq, Repr

/-- The word space: `REG[0]` to `REG[5]` (`10_state.md` R40, `20_memory.md` R60, R61). It has no byte addresses. -/
structure Words where
  w0 : Word
  w1 : Word
  w2 : Word
  w3 : Word
  w4 : Word
  w5 : Word
  deriving DecidableEq, Repr

/-- `STATUS` (`10_state.md` R43). -/
structure Status where
  /-- `STATUS.code`: 0 `OK`, 1 to 10 an error (`60_exceptions.md` R221) -/
  code : BitVec 4
  /-- `STATUS.field` (`60_exceptions.md` R222) -/
  field : BitVec 4
  /-- `STATUS.value`, zero-extended -/
  value : Wide
  /-- `STATUS.max`, for `FieldOutOfRange` only -/
  max : BitVec 16
  deriving DecidableEq, Repr

/-- The divisors that `DivideByZero` names (`60_exceptions.md` R222, R226). -/
inductive Divisor where
  | rCounter
  | pfd
  | channelSpacing
  | gcd
  | bandSelectDivider
  deriving DecidableEq, Repr

/-- The fields that `FieldOutOfRange` names (R222). -/
inductive RangeField where
  | int
  | frac
  | mod
  deriving DecidableEq, Repr

/-- The inputs that `LookupValueNotFound` names (R222, `42_lut_encoder.md` R176). -/
inductive LookupField where
  | chargePumpCurrent
  | antiBacklashWidth
  | outputPower
  | auxOutputPower
  deriving DecidableEq, Repr

/-- The ten errors of a command with what each records (`60_exceptions.md` R221, R223). They are outcomes of a command,
reported in `STATUS`; none stops the machine (R220, R239). -/
inductive BlockError where
  | fracModeExceedsMaxPfd (pfd : Nat)
  | intModeExceedsMaxPfd (pfd : Nat)
  | bandSelectModeRequiresHigh (pfd : Nat)
  | bandSelectClockTooHigh (bscHz : Nat)
  | bandSelectClockTooHighForVariant (bscHz : Nat)
  | fieldOutOfRange (which : RangeField) (value : Nat) (max : Nat)
  | lookupValueNotFound (which : LookupField) (value : Nat)
  | invalidOutputDividerSelect
  | divideByZero (which : Divisor)
  | noSettings
  deriving DecidableEq, Repr

/-- The two commands that can end in an error and the result group each owns (`60_exceptions.md` R220, R224). -/
inductive Raiser where
  | solve
  | pack
  deriving DecidableEq, Repr

/-- What the host does in a step: issue the command on `cmd`, or read the word at `rd_idx` (`00_scope.md` R19;
`20_memory.md` R62). Asserting `rst` is a port of its own. The model's own, no state of the block (log entry 1). -/
inductive HostAct where
  | command
  | read
  deriving DecidableEq, Repr

/-- Why a step stops. All three are the host's errors at the read port; no command ever stops (R239). -/
inductive Fault where
  /-- Raised by a read at word index 6 or 7, which name no location (`20_memory.md` R64, U13). Safe. -/
  | readNoLocation
  /-- Raised by a read while `REG_VALID = 0`: the words hold no value (`20_memory.md` R62, U12). Safe. -/
  | readNoValue
  /-- Raised by the meaning of a word format when the read port does not show that word. `step` runs only the word that
  the port shows and never raises it. Safe. -/
  | wordNotOnPort
  deriving DecidableEq, Repr

/-- Why a step has no meaning to run. -/
inductive Refusal where
  /-- An instruction that has no meaning yet. No arm answers it: every row of the opcode table is modelled. Safe. -/
  | notModelled (mnemonic : String)
  /-- Raised by `step` when the word on the read port is in none of the formats of R83 to R88; the packer produces no
  such word (`30_encoding.md` R90). Safe. -/
  | undecodable (reason : DecodeError)
  deriving DecidableEq, Repr

/-- The whole machine. `rst`, `cmd`, `rdIdx`, `freqHz`, `opt` and `setIn` are the host's input ports, held here because
a step has no other argument (log entry 1); `settings` to `status` are the block's state; the last three fields are the
model's own. -/
structure State where
  /-- `rst` (`10_state.md` R38, `70_reset_and_hazards.md` R250) -/
  rst : Bit
  /-- `cmd` (R38, `30_encoding.md` R81) -/
  cmd : BitVec 2
  /-- `rd_idx` (R38, `20_memory.md` R62) -/
  rdIdx : BitVec 3
  /-- `freq_hz` (R36) -/
  freqHz : Hz
  /-- `opt.*` (R22) -/
  opt : Options
  /-- `set_in.*` (R37) -/
  setIn : Settings
  /-- `SET` (R39) -/
  settings : Settings
  /-- `SET_VALID` (R42) -/
  setValid : Bool
  /-- `REG[0..5]` (R40) -/
  words : Words
  /-- `REG_VALID` (R42) -/
  regValid : Bool
  /-- `STATUS` (R43) -/
  status : Status
  /-- the model's own: what the host does in the next step (log entry 1) -/
  act : HostAct
  /-- the model's own: the 32 bits the host received at its last read, the destination of the data movement "`REG[i]`
  to the host" (`40_commands.md` R115; log entry 3) -/
  hostWord : Word
  /-- the model's own: how many free values have been taken (log entry 2) -/
  freeCount : Nat
  deriving DecidableEq, Repr

/-- `STATUS = (OK, 0, 0, 0)` (`60_exceptions.md` R223). -/
def Status.ok : Status := ⟨0, 0, 0, 0⟩

/-- Every Options port at 0. The ports have no reset value (`10_state.md` R46: "whatever the host drives"); this is
what the model holds before the host has driven them (DESIGN CHOICE, unsafe, log entry 4). -/
def Options.undriven : Options where
  variant := 0
  fbSel := 0
  bscMode := 0
  bscDivIn := 0
  noiseMode := 0
  muxout := 0
  pdPol := 0
  clkdivMode := 0
  clkdivVal := 0
  auxSel := 0
  auxEn := 0
  ldPin := 0
  presc89 := 0
  outPwr := 0
  auxPwr := 0
  refHz := 0
  spacingHz := 0
  rCounter := 0
  refDbl := 0
  refHalf := 0
  cpCurrent := 0
  abpWidth := 0
  phase := 0
  gcdEn := 0
  dblBuf := 0
  pwrDn := 0
  cpTri := 0
  cntRst := 0
  chgCancel := 0
  csr := 0
  vcoPd := 0
  mtld := 0
  outEn := 0

/-- A Settings value of zeros: the named value of `SET` at reset, where R46 says "unspecified" (DESIGN CHOICE, unsafe,
log entry 4), and of the undriven `set_in` ports. -/
def Settings.zero : Settings := ⟨0, 0, 0, 0, 0⟩

/-- Six words of zeros: the named value of `REG[0..5]` at reset, where R46 says "unspecified" (DESIGN CHOICE, unsafe,
log entry 4). -/
def Words.zero : Words := ⟨0, 0, 0, 0, 0, 0⟩

/-- The machine after reset (`10_state.md` R46, `70_reset_and_hazards.md` R250): both valid flags 0 and
`STATUS = (OK, 0, 0, 0)`. `rst` is released and `cmd` is `NOP`, the idle value of the command port (D2); the data
registers and the other ports, to which no rule gives a value, hold the zeros of log entry 4. -/
def State.reset : State where
  rst := 0
  cmd := 0
  rdIdx := 0
  freqHz := 0
  opt := Options.undriven
  setIn := Settings.zero
  settings := Settings.zero
  setValid := false
  words := Words.zero
  regValid := false
  status := Status.ok
  act := .command
  hostWord := 0
  freeCount := 0

end Sys2Proof.Machine
end

