-- ==== Sys2Proof/Machine/Operands.lean ====
section
/-! DEFINITION. How operands are read: the numeric value of a port, the signed ports, the named enumerations, and the
word a read index selects. -/

namespace Sys2Proof.Machine

/-- `b(c)`: 1 when the condition holds and 0 when it does not (`00_scope.md` R8), as a number to be placed in a word. -/
def b (c : Bool) : Nat := if c then 1 else 0

/-- `opt.variant = FULL` (`10_state.md` R23). -/
def isFull (o : Options) : Bool := o.variant == 1#1

/-- `opt.fb_sel` is "fundamental" (R24). -/
def isFundamental (o : Options) : Bool := o.fbSel == 1#1

/-- `opt.bsc_mode` is "low" (R25). -/
def isModeLow (o : Options) : Bool := o.bscMode == 0#1

/-- The pre-scaling factor of a boolean port: 2 when it is set and 1 when not (`41_solver.md` R131). -/
def twoIf (p : Bit) : Nat := if p = 1#1 then 2 else 1

/-- `sext` of the 8-bit power ports: their value in dBm, -128 to 127 (`10_state.md` R34, `00_scope.md` R12). -/
def dBm (p : BitVec 8) : Int := p.toInt

/-- The value that an error payload shows of a port: its bits zero-extended (`42_lut_encoder.md` R176). -/
def asDriven {n : Nat} (p : BitVec n) : Nat := p.toNat

/-- `REG[i]`, for the six indices that name a location; `none` for 6 and 7 (`20_memory.md` R61, R64). -/
def wordAt (ws : Words) (i : BitVec 3) : Option Word :=
  if i = 0#3 then some ws.w0
  else if i = 1#3 then some ws.w1
  else if i = 2#3 then some ws.w2
  else if i = 3#3 then some ws.w3
  else if i = 4#3 then some ws.w4
  else if i = 5#3 then some ws.w5
  else none

/-- The six words with the one at index `i` replaced; used only to place a word where `step` fetches it. -/
def withWordAt (ws : Words) (i : BitVec 3) (w : Word) : Words :=
  if i = 0#3 then { ws with w0 := w }
  else if i = 1#3 then { ws with w1 := w }
  else if i = 2#3 then { ws with w2 := w }
  else if i = 3#3 then { ws with w3 := w }
  else if i = 4#3 then { ws with w4 := w }
  else if i = 5#3 then { ws with w5 := w }
  else ws

end Sys2Proof.Machine
end

