-- ==== Sys2Proof/Machine/Flags.lean ====
section
/-! DEFINITION. The status register of each outcome (`60_exceptions.md` R221 to R223), its form as one 94-bit port
(`30_encoding.md` R93), and which check of a command is reported. The two valid flags are written by the operations of
`Ops.lean`. -/

namespace Sys2Proof.Machine

/-- The number of a divisor in `STATUS.field` (`60_exceptions.md` R222). -/
def divisorNumber : Divisor → BitVec 4
  | .rCounter => 8
  | .pfd => 9
  | .channelSpacing => 10
  | .gcd => 11
  | .bandSelectDivider => 12

/-- The number of a range-checked field in `STATUS.field` (R222). -/
def rangeFieldNumber : RangeField → BitVec 4
  | .int => 1
  | .frac => 2
  | .mod => 3

/-- The number of a looked-up input in `STATUS.field` (R222, `42_lut_encoder.md` R176). -/
def lookupFieldNumber : LookupField → BitVec 4
  | .chargePumpCurrent => 4
  | .antiBacklashWidth => 5
  | .outputPower => 6
  | .auxOutputPower => 7

/-- What an error writes into `STATUS`: its code (R221), the field or divisor (R222) and the payload (R223), values
zero-extended to 70 bits. -/
def errorStatus : BlockError → Status
  | .fracModeExceedsMaxPfd pfd => ⟨1, 0, BitVec.ofNat 70 pfd, 0⟩
  | .intModeExceedsMaxPfd pfd => ⟨2, 0, BitVec.ofNat 70 pfd, 0⟩
  | .bandSelectModeRequiresHigh pfd => ⟨3, 0, BitVec.ofNat 70 pfd, 0⟩
  | .bandSelectClockTooHigh bscHz => ⟨4, 0, BitVec.ofNat 70 bscHz, 0⟩
  | .bandSelectClockTooHighForVariant bscHz => ⟨5, 0, BitVec.ofNat 70 bscHz, 0⟩
  | .fieldOutOfRange which value max => ⟨6, rangeFieldNumber which, BitVec.ofNat 70 value, BitVec.ofNat 16 max⟩
  | .lookupValueNotFound which value => ⟨7, lookupFieldNumber which, BitVec.ofNat 70 value, 0⟩
  | .invalidOutputDividerSelect => ⟨8, 0, 0, 0⟩
  | .divideByZero which => ⟨9, divisorNumber which, 0, 0⟩
  | .noSettings => ⟨10, 0, 0, 0⟩

/-- `STATUS` as one 94-bit port: code at [93:90], field at [89:86], value at [85:16], max at [15:0]
(`30_encoding.md` R93). -/
def statusPort (st : Status) : BitVec 94 := st.code ++ st.field ++ st.value ++ st.max

/-- The first check of a list that fails, in list order; nothing after it is reported (`60_exceptions.md` R228, R229).
An entry is the failing condition and the error it raises. -/
def firstFailing : List (Bool × BlockError) → Option BlockError
  | [] => none
  | (failed, e) :: rest => if failed then some e else firstFailing rest

end Sys2Proof.Machine
end

