-- ==== Sys2Proof/Machine/Ops.lean ====
section
/-! DEFINITION. The shared operations over the machine: what ends a command (success, or `raise`, the block's only form
of taking an exception), the host's read of a word, reset, and the output ports. There is no return from an error,
because there was no entry: nothing is saved and nothing is restored (`60_exceptions.md` R231). -/

namespace Sys2Proof.Machine

/-- `SET` left without a value: its bits are free values and the counter moves on (`10_state.md` R42, U12; log entry 2).
-/
def dropSettings (s : State) : State :=
  { s with
    settings := ⟨Config.freeInt s.freeCount, Config.freeFrac s.freeCount, Config.freeMod s.freeCount,
      Config.freeOutdiv s.freeCount, Config.freeBscdiv s.freeCount⟩
    setValid := false
    freeCount := s.freeCount + 1 }

/-- `REG[0..5]` left without a value: their bits are free values and the counter moves on (R42, U12; log entry 2). -/
def dropWords (s : State) : State :=
  { s with
    words := ⟨Config.freeWord s.freeCount 0, Config.freeWord s.freeCount 1, Config.freeWord s.freeCount 2,
      Config.freeWord s.freeCount 3, Config.freeWord s.freeCount 4, Config.freeWord s.freeCount 5⟩
    regValid := false
    freeCount := s.freeCount + 1 }

/-- `raise E(info)`, complete (`60_exceptions.md` R224, `40_commands.md` R119). Both raisers write `STATUS` and clear
`REG_VALID`. `SOLVE` also clears `SET_VALID` and leaves `SET` without a value; `PACK` leaves `SET` and `SET_VALID`
unchanged and the words without a value. Nothing is saved and control goes nowhere. -/
def raise (by_ : Raiser) (e : BlockError) (s : State) : State :=
  match by_ with
  | .solve => { dropSettings s with regValid := false, status := errorStatus e }
  | .pack => { dropWords s with status := errorStatus e }

/-- A Settings value enters `SET`: `SET_VALID <- 1` and the old words no longer hold a value (`40_commands.md` R114,
`41_solver.md` R147, D25). `REG[0..5]` are not written. -/
def writeSettings (v : Settings) (s : State) : State :=
  { s with settings := v, setValid := true, regValid := false }

/-- The six words are written together: `REG_VALID <- 1` (`43_packer.md` R205). -/
def writeWords (ws : Words) (s : State) : State := { s with words := ws, regValid := true }

/-- `STATUS <- (OK, 0, 0, 0)` (R147, R205). -/
def writeOk (s : State) : State := { s with status := Status.ok }

/-- `MemRead(i, 4)`: no location at 6 and 7, no value while `REG_VALID = 0`, else `REG[i]` (`20_memory.md` R62, R64). -/
def memRead (s : State) (i : BitVec 3) : Except Fault Word :=
  match wordAt s.words i with
  | none => .error .readNoLocation
  | some w => if s.regValid then .ok w else .error .readNoValue

/-- The word port: what the host's read at `rd_idx` gives (R62, `40_commands.md` R117). -/
def wordPort (s : State) : Except Fault Word := memRead s s.rdIdx

/-- The data movement "`REG[i]` to the host" (`40_commands.md` R115): the host receives the word `w`, which its read port
must show. The block's state does not change (R62). -/
def receiveWord (w : Word) (s : State) : Host.Outcome State Fault Refusal :=
  if wordPort s = .ok w then .next { s with hostWord := w } else .fault .wordNotOnPort

/-- Reset (`70_reset_and_hazards.md` R250, R253): both flags 0, `STATUS = (OK, 0, 0, 0)`, `SET` and the words at the
named values of `State.reset` (log entry 4); the ports and the host's side are not touched. -/
def resetBlock (s : State) : State :=
  { s with
    settings := State.reset.settings
    setValid := State.reset.setValid
    words := State.reset.words
    regValid := State.reset.regValid
    status := State.reset.status }

/-- The bytes the host puts before the block in this step: the command port, or the word its read port shows
(`30_encoding.md` R81; `20_memory.md` R62, R66). -/
def fetch (s : State) : Except Fault (List Byte) :=
  match s.act with
  | .command => .ok [s.cmd.setWidth 8]
  | .read => (wordPort s).map wordBytes

/-- One step, `run` being the meaning of the instructions: `rst` wins over everything (`70_reset_and_hazards.md` R251);
otherwise what the host puts before the block is fetched, decoded and run (`40_commands.md` R110). -/
def runStep (run : Instr → State → Host.Outcome State Fault Refusal) (s : State) : Host.Outcome State Fault Refusal :=
  if s.rst = 1#1 then .next (resetBlock s)
  else
    match fetch s with
    | .error f => .fault f
    | .ok bs =>
      match decode s.opt.variant bs with
      | .error e => .refused (.undecodable e)
      | .ok i => run i s

/-- The `SET` output ports: a value only while `SET_VALID = 1` (`40_commands.md` R117). -/
def settingsPort (s : State) : Option Settings := if s.setValid then some s.settings else none

/-- The six words as the host can see them: only while `REG_VALID = 1` (R117). -/
def wordsPort (s : State) : Option Words := if s.regValid then some s.words else none

/-- `Serialize`: 24 bytes, `REG[5]` first and `REG[0]` last, each word most significant byte first
(`20_memory.md` R66 to R68). Defined only while `REG_VALID = 1`. -/
def serialize (s : State) : Option (List Byte) :=
  (wordsPort s).map fun ws =>
    wordBytes ws.w5 ++ wordBytes ws.w4 ++ wordBytes ws.w3 ++ wordBytes ws.w2 ++ wordBytes ws.w1 ++ wordBytes ws.w0

/-- The inputs that the host drives besides `rst`: what no command writes (`10_state.md` R21). -/
structure Ports where
  cmd : BitVec 2
  rdIdx : BitVec 3
  freqHz : Hz
  opt : Options
  setIn : Settings
  deriving DecidableEq, Repr

/-- The driven ports of a state. -/
def ports (s : State) : Ports := ⟨s.cmd, s.rdIdx, s.freqHz, s.opt, s.setIn⟩

end Sys2Proof.Machine
end

