-- ==== Sys2Proof/Machine/Commands.lean ====
section
/-! DEFINITION. The two small commands (`40_commands.md`). -/

namespace Sys2Proof.Machine

/-- `NOP`: nothing is written (R112). -/
def execNop (s : State) : Host.Outcome State Fault Refusal := .next s

/-- `LDSET`: the `set_in` ports enter `SET` unchecked; `STATUS` and the words are not written (R114). -/
def execLdset (s : State) : Host.Outcome State Fault Refusal := .next (writeSettings s.setIn s)

end Sys2Proof.Machine
end

