-- ==== Sys2Proof/Machine/Lut.lean ====
section
/-! DEFINITION. The LUT encoder (`42_lut_encoder.md`): the exact-match linear search, the three tables, and the
output-divider select. It has no state and raises nothing by itself (R179). A miss is `none`. -/

namespace Sys2Proof.Machine

/-- `Lookup(T, v)`: the index of the first entry equal to `v`, searching from entry 0 (R170). -/
def lookup {α : Type} [DecidableEq α] : List α → α → Option Nat
  | [], _ => none
  | t :: ts, v => if t = v then some 0 else (lookup ts v).map (· + 1)

/-- `LutCP`: the charge-pump current in 0.01 mA (R171). -/
def lutCp (c : Config) (v : BitVec 16) : Option Nat := lookup c.cpTable v.toNat

/-- `LutABP`: the anti-backlash pulse width in ns (R172). -/
def lutAbp (c : Config) (v : BitVec 8) : Option Nat := lookup c.abpTable v.toNat

/-- `LutPWR`: an output power in dBm, the port read as a signed number (R173). One table for both outputs. -/
def lutPwr (c : Config) (v : BitVec 8) : Option Nat := lookup c.pwrTable (dBm v)

/-- `Log2Exact(d)` for an 8-bit `d`: the `n` with `2^n = d`, if there is one (`00_scope.md` R11). -/
def log2Exact (d : BitVec 8) : Option Nat := (List.range 8).find? fun n => 2 ^ n == d.toNat

/-- `OutDivSel(d)`: the exact logarithm, when it is at most `OUTDIV_SEL_MAX` (R175). -/
def outDivSel (c : Config) (d : BitVec 8) : Option Nat := (log2Exact d).filter fun n => n ≤ c.outdivSelMax

end Sys2Proof.Machine
end

