-- ==== Sys2Proof/Machine/Packer.lean ====
section
/-! DEFINITION. The register packer: `PACK` (`43_packer.md`). The words are composed as the document does it, on
numbers: each field shifted left by the number of its lowest bit, all of them ORed (R196). -/

namespace Sys2Proof.Machine

/-- The nine checks of `PACK` in their fixed order (R195, `60_exceptions.md` R229). -/
def packChecks (c : Config) (o : Options) (valid : Bool) (v : Settings) : List (Bool × BlockError) :=
  [(!valid, .noSettings),
   (decide (c.intMax < v.int.toNat), .fieldOutOfRange .int v.int.toNat c.intMax),
   (decide (c.fracMax < v.frac.toNat), .fieldOutOfRange .frac v.frac.toNat c.fracMax),
   (decide (c.modMax < v.mod.toNat), .fieldOutOfRange .mod v.mod.toNat c.modMax),
   ((lutCp c o.cpCurrent).isNone, .lookupValueNotFound .chargePumpCurrent (asDriven o.cpCurrent)),
   ((lutAbp c o.abpWidth).isNone, .lookupValueNotFound .antiBacklashWidth (asDriven o.abpWidth)),
   ((lutPwr c o.outPwr).isNone, .lookupValueNotFound .outputPower (asDriven o.outPwr)),
   ((lutPwr c o.auxPwr).isNone, .lookupValueNotFound .auxOutputPower (asDriven o.auxPwr)),
   ((outDivSel c v.outdiv).isNone, .invalidOutputDividerSelect)]

/-- Word 0 (R198). -/
def word0 (v : Settings) : Nat := (v.int.toNat <<< 15) ||| (v.frac.toNat <<< 3) ||| 0

/-- Word 1: of the phase value only whether it is 0 (R199). -/
def word1 (o : Options) (v : Settings) : Nat :=
  (b (o.phase != 0#12) <<< 28) ||| (o.presc89.toNat <<< 27) ||| (b (o.phase == 0#12) <<< 15) |||
    (v.mod.toNat <<< 3) ||| 1

/-- Word 2, from the table indices `cp` and `abp` (R200). `ABP_NDEF` is `b(abp != ABP_DEFAULT_INDEX)`. -/
def word2 (c : Config) (o : Options) (v : Settings) (cp abp : Nat) : Nat :=
  (o.noiseMode.toNat <<< 29) ||| (o.muxout.toNat <<< 26) ||| (o.refDbl.toNat <<< 25) ||| (o.refHalf.toNat <<< 24) |||
    (o.rCounter.toNat <<< 14) ||| (o.dblBuf.toNat <<< 13) ||| (cp <<< 9) ||| (b (v.frac != 0#64) <<< 8) |||
    (b (abp != c.abpDefaultIndex) <<< 7) ||| (o.pdPol.toNat <<< 6) ||| (o.pwrDn.toNat <<< 5) |||
    (o.cpTri.toNat <<< 4) ||| (o.cntRst.toNat <<< 3) ||| 2

/-- Word 3: the only word that depends on the variant (R201). -/
def word3 (o : Options) (abp : Nat) : Nat :=
  (o.csr.toNat <<< 18) ||| (o.clkdivMode.toNat <<< 15) ||| (o.clkdivVal.toNat <<< 3) ||| 3 |||
    (if isFull o then (o.bscMode.toNat <<< 23) ||| (abp <<< 22) ||| (o.chgCancel.toNat <<< 21) else 0)

/-- Word 4, from the output-divider select and the two power indices (R202). -/
def word4 (o : Options) (v : Settings) (sel ax pw : Nat) : Nat :=
  (o.fbSel.toNat <<< 23) ||| (sel <<< 20) ||| (v.bscdiv.toNat <<< 12) ||| (o.vcoPd.toNat <<< 11) |||
    (o.mtld.toNat <<< 10) ||| (o.auxSel.toNat <<< 9) ||| (o.auxEn.toNat <<< 8) ||| (ax <<< 6) |||
    (o.outEn.toNat <<< 5) ||| (pw <<< 3) ||| 4

/-- Word 5 (R203). -/
def word5 (c : Config) (o : Options) : Nat := (o.ldPin.toNat <<< 22) ||| (c.r5Reserved <<< 19) ||| 5

/-- The six words from the indices of the five hits (R185). -/
def compose (c : Config) (o : Options) (v : Settings) (cp abp pw ax sel : Nat) : Words where
  w0 := BitVec.ofNat 32 (word0 v)
  w1 := BitVec.ofNat 32 (word1 o v)
  w2 := BitVec.ofNat 32 (word2 c o v cp abp)
  w3 := BitVec.ofNat 32 (word3 o abp)
  w4 := BitVec.ofNat 32 (word4 o v sel ax pw)
  w5 := BitVec.ofNat 32 (word5 c o)

/-- The index of a hit. Read only after the checks have passed, when every lookup is a hit; the 0 for a miss reaches no
result. -/
def hit (r : Option Nat) : Nat := r.getD 0

/-- `pack(options, settings)`: the six words, or the first check that fails (R185). `valid` is `SET_VALID`. -/
def pack (c : Config) (o : Options) (valid : Bool) (v : Settings) : Except BlockError Words :=
  match firstFailing (packChecks c o valid v) with
  | some e => .error e
  | none =>
    .ok (compose c o v (hit (lutCp c o.cpCurrent)) (hit (lutAbp c o.abpWidth)) (hit (lutPwr c o.outPwr))
      (hit (lutPwr c o.auxPwr)) (hit (outDivSel c v.outdiv)))

/-- `PACK` under the configuration `c` (R185, R205, R206). It reads the Options, `SET` and `SET_VALID` only (R208). -/
def packWith (c : Config) (s : State) : Host.Outcome State Fault Refusal :=
  match pack c s.opt s.setValid s.settings with
  | .ok ws => .next (writeOk (writeWords ws s))
  | .error e => .next (raise .pack e s)

/-- `PACK`, the configuration argument at its default, the stated values (`00_scope.md` R6; log entry 6). -/
def execPack (s : State) : Host.Outcome State Fault Refusal := packWith Config.standard s

end Sys2Proof.Machine
end

