-- ==== Sys2Proof/Machine/Solver.lean ====
section
/-! DEFINITION. The frequency solver: `SOLVE` (`41_solver.md`), step by step. All arithmetic is exact on naturals with
the floor quotient (`00_scope.md` R9). A quotient by 0 has no value in the spec; Lean's total quotient never reaches a
result, because the check of its divisor stands before it in `solveChecks` (R226). -/

namespace Sys2Proof.Machine

/-- Step 1: the PFD frequency, left to right with a floor at each division (R131). -/
def pfd (o : Options) : Nat := o.refHz.toNat * twoIf o.refDbl / twoIf o.refHalf / o.rCounter.toNat

/-- Step 2: the exponent of `OutDiv(f)`: the first `n` in 0..`OUTDIV_MAX_EXP` with `VCO_MAX_HZ / 2^n <= f`, else the
last one tried (R132). -/
def outDivExp (c : Config) (f : Nat) : Nat :=
  ((List.range (c.outdivMaxExp + 1)).find? fun n => c.vcoMaxHz / 2 ^ n ≤ f).getD c.outdivMaxExp

/-- Step 2: `OutDiv(f)`, the output divider (R132). -/
def outDiv (c : Config) (f : Nat) : Nat := 2 ^ outDivExp c f

/-- Step 3: the feedback number scaled by `N_SCALE`, one floor at the end (R134). -/
def n1000 (c : Config) (f : Nat) (o : Options) : Nat :=
  if isFundamental o then f * outDiv c f * c.nScale / pfd o else f * c.nScale / pfd o

/-- Step 4: INT (R135). That its 1000 is `N_SCALE` is DEDUCED (log entry 14). -/
def intPart (c : Config) (f : Nat) (o : Options) : Nat := n1000 c f o / c.nScale

/-- Step 4: MOD before reduction, from the undivided reference (R136). -/
def mod0 (o : Options) : Nat := o.refHz.toNat / o.spacingHz.toNat

/-- Step 4: FRAC before reduction, product first and one floor (R137). That its 1000 is `N_SCALE` is
DEDUCED (log entry 14). -/
def frac0 (c : Config) (f : Nat) (o : Options) : Nat := n1000 c f o % c.nScale * mod0 o / c.nScale

/-- Step 5 on a pair (MOD, FRAC): both divided by their greatest common divisor (R138). `Nat.gcd` is the Euclidean
algorithm of `00_scope.md` R10. -/
def reduce (p : Nat × Nat) : Nat × Nat := (p.1 / Nat.gcd p.1 p.2, p.2 / Nat.gcd p.1 p.2)

/-- Step 5: the pair (MOD, FRAC) after the reduction, if it is enabled (R138). -/
def reduced (c : Config) (f : Nat) (o : Options) : Nat × Nat :=
  if o.gcdEn = 1#1 then reduce (mod0 o, frac0 c f o) else (mod0 o, frac0 c f o)

/-- Step 6: MOD = 1 is forced to 2 (R139). -/
def forceMod (m : Nat) : Nat := if m = 1 then 2 else m

/-- Steps 5 and 6: the final MOD (R138, R139). -/
def modOut (c : Config) (f : Nat) (o : Options) : Nat := forceMod (reduced c f o).1

/-- Steps 5 and 6: the final FRAC, which step 6 does not touch (R138, R139). -/
def fracOut (c : Config) (f : Nat) (o : Options) : Nat := (reduced c f o).2

/-- `BscScale(pfd)` in each of the three admitted roundings (R144). -/
def bscScale (c : Config) (p : Nat) : Nat :=
  match c.bscRounding with
  | .floorOfProduct => c.bscLowScale * p / 1000000
  | .productOfFloor => c.bscLowScale * (p / 1000000)
  | .ceilOfProduct => (c.bscLowScale * p + 999999) / 1000000

/-- Step 8: the band-select clock divider `B`. A set `opt.bsc_div_in` is used as it is in both modes; in mode high the
divider is never derived (R144). -/
def bscDiv (c : Config) (o : Options) : Nat :=
  if o.bscDivIn = 0#8 ∧ isModeLow o then min (bscScale c (pfd o)) c.bscDivCap else o.bscDivIn.toNat

/-- Step 9: the band-select clock frequency, floored (R145, D12). -/
def bscHz (c : Config) (o : Options) : Nat := pfd o / bscDiv c o

/-- The ten checks of `SOLVE` in their fixed order (R150, `60_exceptions.md` R228). The last one can never be the
first to fail under `BSC_MAX_HZ <= BSC_VARIANT_MAX_HZ` (R146) and is kept. R142 writes its threshold 32_000_000 without a
name; that it is `PFD_FRAC_MAX_HZ`, and so follows it in another configuration, is the model's choice (DESIGN CHOICE,
unsafe for another configuration, log entry 14). -/
def solveChecks (c : Config) (f : Nat) (o : Options) : List (Bool × BlockError) :=
  [(o.rCounter == 0#10, .divideByZero .rCounter),
   (pfd o == 0, .divideByZero .pfd),
   (o.spacingHz == 0#64, .divideByZero .channelSpacing),
   (o.gcdEn == 1#1 && Nat.gcd (mod0 o) (frac0 c f o) == 0, .divideByZero .gcd),
   (decide (c.pfdFracMaxHz < pfd o) && fracOut c f o != 0, .fracModeExceedsMaxPfd (pfd o)),
   (decide (c.pfdIntMaxHz < pfd o) && fracOut c f o == 0 && isFull o, .intModeExceedsMaxPfd (pfd o)),
   (fracOut c f o == 0 && isFull o && isModeLow o && decide (c.pfdFracMaxHz < pfd o),
     .bandSelectModeRequiresHigh (pfd o)),
   (bscDiv c o == 0, .divideByZero .bandSelectDivider),
   (decide (c.bscMaxHz < bscHz c o), .bandSelectClockTooHigh (bscHz c o)),
   (decide (c.bscVariantMaxHz < bscHz c o), .bandSelectClockTooHighForVariant (bscHz c o))]

/-- The Settings value of a solve that passes every check, each field in its own width (R147; R149 says that nothing
is lost). -/
def solved (c : Config) (f : Nat) (o : Options) : Settings where
  int := BitVec.ofNat 70 (intPart c f o)
  frac := BitVec.ofNat 64 (fracOut c f o)
  mod := BitVec.ofNat 64 (modOut c f o)
  outdiv := BitVec.ofNat 8 (outDiv c f)
  bscdiv := BitVec.ofNat 8 (bscDiv c o)

/-- `solve(frequency_hz, options)`: the Settings, or the first check that fails (R130). -/
def solve (c : Config) (f : Hz) (o : Options) : Except BlockError Settings :=
  match firstFailing (solveChecks c f.toNat o) with
  | some e => .error e
  | none => .ok (solved c f.toNat o)

/-- `SOLVE` under the configuration `c` (R130, R147, R148). It reads `freq_hz` and `opt.*` only (R155). -/
def solveWith (c : Config) (s : State) : Host.Outcome State Fault Refusal :=
  match solve c s.freqHz s.opt with
  | .ok v => .next (writeOk (writeSettings v s))
  | .error e => .next (raise .solve e s)

/-- `SOLVE`, the configuration argument at its default, the stated values (`00_scope.md` R6; log entry 6). -/
def execSolve (s : State) : Host.Outcome State Fault Refusal := solveWith Config.standard s

end Sys2Proof.Machine
end

