-- ==== Sys2Proof/Machine/WordFormats.lean ====
section
/-! DEFINITION. The seven word formats. A word is no command: "all four codes are assigned" to the commands
(`30_encoding.md` R81) and the host cannot write a word (`20_memory.md` R63). The block shows a word at the host's read,
`MemRead(i, 4)` (R62), and that read is the one event in which a word of a given format takes part; so it is the meaning
of a format: the host receives the word, whose fields are the arguments, and the block's state does not change (log
entry 3). How the packer composes the words (`43_packer.md` R198 to R203) is in `Packer.lean`. -/

namespace Sys2Proof.Machine

/-- The host receives a word of format `R0` (R61, R62, R83). -/
def execR0 (int : BitVec 16) (frac : BitVec 12) (s : State) : Host.Outcome State Fault Refusal :=
  receiveWord (encodeR0 int frac) s

/-- The host receives a word of format `R1` (R61, R62, R84). -/
def execR1 (phaseNz presc89 phaseZ : Bit) (mod : BitVec 12) (s : State) : Host.Outcome State Fault Refusal :=
  receiveWord (encodeR1 phaseNz presc89 phaseZ mod) s

/-- The host receives a word of format `R2` (R61, R62, R85). -/
def execR2 (noiseMode : BitVec 2) (muxout : BitVec 3) (refDbl refHalf : Bit) (rCounter : BitVec 10) (dblBuf : Bit)
    (cpIdx : BitVec 4) (fracNz abpNdef pdPol pwrDn cpTri cntRst : Bit) (s : State) :
    Host.Outcome State Fault Refusal :=
  receiveWord
    (encodeR2 noiseMode muxout refDbl refHalf rCounter dblBuf cpIdx fracNz abpNdef pdPol pwrDn cpTri cntRst) s

/-- The host receives a word of format `R3_LEGACY` (R61, R62, R86). -/
def execR3Legacy (csr : Bit) (clkdivMode : BitVec 2) (clkdivVal : BitVec 12) (s : State) :
    Host.Outcome State Fault Refusal :=
  receiveWord (encodeR3Legacy csr clkdivMode clkdivVal) s

/-- The host receives a word of format `R3_FULL` (R61, R62, R86). -/
def execR3Full (bscMode abpIdx chgCancel csr : Bit) (clkdivMode : BitVec 2) (clkdivVal : BitVec 12) (s : State) :
    Host.Outcome State Fault Refusal :=
  receiveWord (encodeR3Full bscMode abpIdx chgCancel csr clkdivMode clkdivVal) s

/-- The host receives a word of format `R4` (R61, R62, R87). -/
def execR4 (fbSel : Bit) (outdivSel : BitVec 3) (bscDiv : BitVec 8) (vcoPd mtld auxSel auxEn : Bit)
    (auxPwr : BitVec 2) (outEn : Bit) (outPwr : BitVec 2) (s : State) : Host.Outcome State Fault Refusal :=
  receiveWord (encodeR4 fbSel outdivSel bscDiv vcoPd mtld auxSel auxEn auxPwr outEn outPwr) s

/-- The host receives a word of format `R5` (R61, R62, R88). -/
def execR5 (ldPin : BitVec 2) (s : State) : Host.Outcome State Fault Refusal := receiveWord (encodeR5 ldPin) s

end Sys2Proof.Machine
end

