-- ==== Sys2Proof/Machine/Dispatch.lean ====
section
/-! DEFINITION. One arm per row of the opcode table, each a direct call of its meaning. -/

namespace Sys2Proof.Machine

def exec (i : Instr) (s : State) : Host.Outcome State Fault Refusal :=
  match i with
  | .nop => Sys2Proof.Machine.execNop s
  | .solve => Sys2Proof.Machine.execSolve s
  | .pack => Sys2Proof.Machine.execPack s
  | .ldset => Sys2Proof.Machine.execLdset s
  | .r0 int frac => Sys2Proof.Machine.execR0 int frac s
  | .r1 phaseNz presc89 phaseZ mod => Sys2Proof.Machine.execR1 phaseNz presc89 phaseZ mod s
  | .r2 noiseMode muxout refDbl refHalf rCounter dblBuf cpIdx fracNz abpNdef pdPol pwrDn cpTri cntRst => Sys2Proof.Machine.execR2 noiseMode muxout refDbl refHalf rCounter dblBuf cpIdx fracNz abpNdef pdPol pwrDn cpTri cntRst s
  | .r3Legacy csr clkdivMode clkdivVal => Sys2Proof.Machine.execR3Legacy csr clkdivMode clkdivVal s
  | .r3Full bscMode abpIdx chgCancel csr clkdivMode clkdivVal => Sys2Proof.Machine.execR3Full bscMode abpIdx chgCancel csr clkdivMode clkdivVal s
  | .r4 fbSel outdivSel bscDiv vcoPd mtld auxSel auxEn auxPwr outEn outPwr => Sys2Proof.Machine.execR4 fbSel outdivSel bscDiv vcoPd mtld auxSel auxEn auxPwr outEn outPwr s
  | .r5 ldPin => Sys2Proof.Machine.execR5 ldPin s

end Sys2Proof.Machine
end

