-- ==== Sys2Proof/Machine/Step.lean ====
section
/-! DEFINITION. One step: one act of the host (`40_commands.md` R110, `00_scope.md` R19). `rst` wins over everything
(`70_reset_and_hazards.md` R251); otherwise what the host puts before the block is fetched, decoded and run. The step
under any other configuration than the default is in `Configured.lean`. -/

namespace Sys2Proof.Machine

/-- One step of the machine. -/
def step (s : State) : Host.Outcome State Fault Refusal := runStep exec s

/-- `s` with a row of the opcode table placed where `step` fetches: a command on the `cmd` port; a word in the location
its own address bits name, as if a `PACK` had just put it there, with the host reading that location, and the variant
port at `LEGACY`, on which a word of either format of word 3 decodes (log entry 9). -/
def State.withFetchWord (s : State) (nbits w : Nat) : State :=
  if nbits ≤ 8 then { s with rst := 0, act := .command, cmd := BitVec.ofNat 2 w }
  else
    { s with
      rst := 0
      act := .read
      rdIdx := field (BitVec.ofNat 32 w) 0 3
      regValid := true
      words := withWordAt s.words (field (BitVec.ofNat 32 w) 0 3) (BitVec.ofNat 32 w)
      opt := { s.opt with variant := 0 } }

end Sys2Proof.Machine
end

