-- ==== Sys2Proof/Machine/Configured.lean ====
section
/-! DEFINITION. The machine with the configuration as an argument (`00_scope.md` R6: "with the stated value as its
default"; R14: a parameter of a step, not state). `exec` and `step`, whose types are the host's, are this machine at
`Config.standard`. Only `SOLVE` and `PACK` read the configuration. -/

namespace Sys2Proof.Machine

/-- The meaning of every instruction under the configuration `c`. -/
def execWith (c : Config) (i : Instr) (s : State) : Host.Outcome State Fault Refusal :=
  match i with
  | .nop => execNop s
  | .solve => solveWith c s
  | .pack => packWith c s
  | .ldset => execLdset s
  | .r0 int frac => execR0 int frac s
  | .r1 phaseNz presc89 phaseZ mod => execR1 phaseNz presc89 phaseZ mod s
  | .r2 noiseMode muxout refDbl refHalf rCounter dblBuf cpIdx fracNz abpNdef pdPol pwrDn cpTri cntRst =>
    execR2 noiseMode muxout refDbl refHalf rCounter dblBuf cpIdx fracNz abpNdef pdPol pwrDn cpTri cntRst s
  | .r3Legacy csr clkdivMode clkdivVal => execR3Legacy csr clkdivMode clkdivVal s
  | .r3Full bscMode abpIdx chgCancel csr clkdivMode clkdivVal =>
    execR3Full bscMode abpIdx chgCancel csr clkdivMode clkdivVal s
  | .r4 fbSel outdivSel bscDiv vcoPd mtld auxSel auxEn auxPwr outEn outPwr =>
    execR4 fbSel outdivSel bscDiv vcoPd mtld auxSel auxEn auxPwr outEn outPwr s
  | .r5 ldPin => execR5 ldPin s

/-- One step under the configuration `c`. -/
def stepWith (c : Config) (s : State) : Host.Outcome State Fault Refusal := runStep (execWith c) s

end Sys2Proof.Machine
end

