-- ==== Sys2Proof/Machine/Unpack.lean ====
section
/-! DEFINITION. Decoding the words back (`30_encoding.md` R95, `43_packer.md` R207): the fields of six words, and the
inputs of the packer that they give back. A reader's function; no command uses it. -/

namespace Sys2Proof.Machine

/-- Every field of the six words, word 3 sliced as `R3_FULL` (R96: it accepts every word `R3_LEGACY` does). -/
structure Unpacked where
  int : BitVec 16
  frac : BitVec 12
  phaseNz : Bit
  presc89 : Bit
  phaseZ : Bit
  mod : BitVec 12
  noiseMode : BitVec 2
  muxout : BitVec 3
  refDbl : Bit
  refHalf : Bit
  rCounter : BitVec 10
  dblBuf : Bit
  cpIdx : BitVec 4
  fracNz : Bit
  abpNdef : Bit
  pdPol : Bit
  pwrDn : Bit
  cpTri : Bit
  cntRst : Bit
  bscMode : Bit
  abpIdx : Bit
  chgCancel : Bit
  csr : Bit
  clkdivMode : BitVec 2
  clkdivVal : BitVec 12
  fbSel : Bit
  outdivSel : BitVec 3
  bscDiv : BitVec 8
  vcoPd : Bit
  mtld : Bit
  auxSel : Bit
  auxEn : Bit
  auxPwr : BitVec 2
  outEn : Bit
  outPwr : BitVec 2
  ldPin : BitVec 2
  deriving DecidableEq, Repr

/-- `Unpack`: the slices of R83 to R88 (R207). -/
def unpack (ws : Words) : Unpacked where
  int := field ws.w0 15 16
  frac := field ws.w0 3 12
  phaseNz := field ws.w1 28 1
  presc89 := field ws.w1 27 1
  phaseZ := field ws.w1 15 1
  mod := field ws.w1 3 12
  noiseMode := field ws.w2 29 2
  muxout := field ws.w2 26 3
  refDbl := field ws.w2 25 1
  refHalf := field ws.w2 24 1
  rCounter := field ws.w2 14 10
  dblBuf := field ws.w2 13 1
  cpIdx := field ws.w2 9 4
  fracNz := field ws.w2 8 1
  abpNdef := field ws.w2 7 1
  pdPol := field ws.w2 6 1
  pwrDn := field ws.w2 5 1
  cpTri := field ws.w2 4 1
  cntRst := field ws.w2 3 1
  bscMode := field ws.w3 23 1
  abpIdx := field ws.w3 22 1
  chgCancel := field ws.w3 21 1
  csr := field ws.w3 18 1
  clkdivMode := field ws.w3 15 2
  clkdivVal := field ws.w3 3 12
  fbSel := field ws.w4 23 1
  outdivSel := field ws.w4 20 3
  bscDiv := field ws.w4 12 8
  vcoPd := field ws.w4 11 1
  mtld := field ws.w4 10 1
  auxSel := field ws.w4 9 1
  auxEn := field ws.w4 8 1
  auxPwr := field ws.w4 6 2
  outEn := field ws.w4 5 1
  outPwr := field ws.w4 3 2
  ldPin := field ws.w5 22 2

/-- `SET.OUTDIV = 2^OUTDIV_SEL` (R95). -/
def Unpacked.outdiv (u : Unpacked) : Nat := 2 ^ u.outdivSel.toNat

/-- `opt.cp_current = CP_TABLE[CP_IDX]` (R95). -/
def Unpacked.cpCurrent (c : Config) (u : Unpacked) : Option Nat := c.cpTable[u.cpIdx.toNat]?

/-- `opt.abp_width = ABP_TABLE[ABP_NDEF]`, for `ABP_DEFAULT_INDEX = 0` (R95). -/
def Unpacked.abpWidth (c : Config) (u : Unpacked) : Option Nat := c.abpTable[u.abpNdef.toNat]?

/-- On `FULL` also `opt.abp_width = ABP_TABLE[ABP_IDX]` (R95). -/
def Unpacked.abpWidthFull (c : Config) (u : Unpacked) : Option Nat := c.abpTable[u.abpIdx.toNat]?

/-- `opt.out_pwr = PWR_TABLE[OUT_PWR]` (R95). -/
def Unpacked.outPower (c : Config) (u : Unpacked) : Option Int := c.pwrTable[u.outPwr.toNat]?

/-- `opt.aux_pwr = PWR_TABLE[AUX_PWR]` (R95). -/
def Unpacked.auxPower (c : Config) (u : Unpacked) : Option Int := c.pwrTable[u.auxPwr.toNat]?

end Sys2Proof.Machine
end

