-- ==== Sys2Proof/Machine/Script.lean ====
section
/-! DEFINITION. The host-script notation of `30_encoding.md` R94: one line is one act of the host. It drives the ports
of the machine and calls `step`; it is the host's side and adds nothing to the block (`00_scope.md` R19, `40_commands.md`
R113). -/

namespace Sys2Proof.Machine

/-- One assignment `<port>=<value>` of a `DRIVE` line (R94): a port of `10_state.md` R22, R36 or R37. -/
inductive Drive where
  | variant (x : Bit)
  | fbSel (x : Bit)
  | bscMode (x : Bit)
  | bscDivIn (x : BitVec 8)
  | noiseMode (x : BitVec 2)
  | muxout (x : BitVec 3)
  | pdPol (x : Bit)
  | clkdivMode (x : BitVec 2)
  | clkdivVal (x : BitVec 12)
  | auxSel (x : Bit)
  | auxEn (x : Bit)
  | ldPin (x : BitVec 2)
  | presc89 (x : Bit)
  | outPwr (x : BitVec 8)
  | auxPwr (x : BitVec 8)
  | refHz (x : Hz)
  | spacingHz (x : Hz)
  | rCounter (x : BitVec 10)
  | refDbl (x : Bit)
  | refHalf (x : Bit)
  | cpCurrent (x : BitVec 16)
  | abpWidth (x : BitVec 8)
  | phase (x : BitVec 12)
  | gcdEn (x : Bit)
  | dblBuf (x : Bit)
  | pwrDn (x : Bit)
  | cpTri (x : Bit)
  | cntRst (x : Bit)
  | chgCancel (x : Bit)
  | csr (x : Bit)
  | vcoPd (x : Bit)
  | mtld (x : Bit)
  | outEn (x : Bit)
  | freqHz (x : Hz)
  | setInt (x : Wide)
  | setFrac (x : FracReg)
  | setMod (x : ModReg)
  | setOutdiv (x : BitVec 8)
  | setBscdiv (x : BitVec 8)
  deriving DecidableEq, Repr

/-- The Options ports after one assignment; the ports it does not name keep their values (R94). -/
def driveOption (d : Drive) (o : Options) : Options :=
  match d with
  | .variant x => { o with variant := x }
  | .fbSel x => { o with fbSel := x }
  | .bscMode x => { o with bscMode := x }
  | .bscDivIn x => { o with bscDivIn := x }
  | .noiseMode x => { o with noiseMode := x }
  | .muxout x => { o with muxout := x }
  | .pdPol x => { o with pdPol := x }
  | .clkdivMode x => { o with clkdivMode := x }
  | .clkdivVal x => { o with clkdivVal := x }
  | .auxSel x => { o with auxSel := x }
  | .auxEn x => { o with auxEn := x }
  | .ldPin x => { o with ldPin := x }
  | .presc89 x => { o with presc89 := x }
  | .outPwr x => { o with outPwr := x }
  | .auxPwr x => { o with auxPwr := x }
  | .refHz x => { o with refHz := x }
  | .spacingHz x => { o with spacingHz := x }
  | .rCounter x => { o with rCounter := x }
  | .refDbl x => { o with refDbl := x }
  | .refHalf x => { o with refHalf := x }
  | .cpCurrent x => { o with cpCurrent := x }
  | .abpWidth x => { o with abpWidth := x }
  | .phase x => { o with phase := x }
  | .gcdEn x => { o with gcdEn := x }
  | .dblBuf x => { o with dblBuf := x }
  | .pwrDn x => { o with pwrDn := x }
  | .cpTri x => { o with cpTri := x }
  | .cntRst x => { o with cntRst := x }
  | .chgCancel x => { o with chgCancel := x }
  | .csr x => { o with csr := x }
  | .vcoPd x => { o with vcoPd := x }
  | .mtld x => { o with mtld := x }
  | .outEn x => { o with outEn := x }
  | .freqHz _ => o
  | .setInt _ => o
  | .setFrac _ => o
  | .setMod _ => o
  | .setOutdiv _ => o
  | .setBscdiv _ => o

/-- One assignment of a `DRIVE` line: the host sets the port it names and no other (R94). -/
def drive (d : Drive) (s : State) : State :=
  match d with
  | .freqHz x => { s with freqHz := x }
  | .setInt x => { s with setIn := { s.setIn with int := x } }
  | .setFrac x => { s with setIn := { s.setIn with frac := x } }
  | .setMod x => { s with setIn := { s.setIn with mod := x } }
  | .setOutdiv x => { s with setIn := { s.setIn with outdiv := x } }
  | .setBscdiv x => { s with setIn := { s.setIn with bscdiv := x } }
  | d => { s with opt := driveOption d s.opt }

/-- One line of a host script (R94). -/
inductive HostLine where
  | drive (ds : List Drive)
  | nop
  | solve
  | pack
  | ldset
  | read (i : BitVec 3)
  | reset
  | ifOk (line : HostLine)
  deriving Repr

/-- The host puts a command on the port and the block executes it (R81, `40_commands.md` R110). -/
def command (cmd : BitVec 2) (s : State) : Host.Outcome State Fault Refusal :=
  step { s with rst := 0, act := .command, cmd := cmd }

/-- The host presents `rd_idx = i` and reads (`20_memory.md` R62). -/
def hostRead (i : BitVec 3) (s : State) : Host.Outcome State Fault Refusal :=
  step { s with rst := 0, act := .read, rdIdx := i }

/-- The host asserts `rst` for a step and releases it (`70_reset_and_hazards.md` R250, R254). -/
def pulseReset (s : State) : Host.Outcome State Fault Refusal :=
  match step { s with rst := 1 } with
  | .next t => .next { t with rst := 0 }
  | .fault f => .fault f
  | .refused r => .refused r

/-- What one line does. `IFOK` runs its line only if `STATUS.code = 0` (R94). -/
def runLine : HostLine → State → Host.Outcome State Fault Refusal
  | .drive ds, s => .next (ds.foldl (fun t d => drive d t) s)
  | .nop, s => command 0b00#2 s
  | .solve, s => command 0b01#2 s
  | .pack, s => command 0b10#2 s
  | .ldset, s => command 0b11#2 s
  | .read i, s => hostRead i s
  | .reset, s => pulseReset s
  | .ifOk line, s => if s.status.code = 0#4 then runLine line s else .next s

/-- A script, line by line, up to the first line that stops. -/
def runScript : List HostLine → State → Host.Outcome State Fault Refusal
  | [], s => .next s
  | line :: rest, s =>
    match runLine line s with
    | .next t => runScript rest t
    | .fault f => .fault f
    | .refused r => .refused r

/-- The pseudo-command `CALC`: `SOLVE`, then `IFOK PACK` (R94, D36). -/
def calcScript : List HostLine := [.solve, .ifOk .pack]

end Sys2Proof.Machine
end

