-- ==== Sys2Proof/Safety.lean ====
section
/-! DEFINITION. What counts as a good state and a good answer: the invariants of `10_state.md` R47, the observable part
of the block, and the written part of a command's effect, in the words the statements use. -/

namespace Sys2Proof.Machine

/-- `STATUS` holds one of the forms of `60_exceptions.md` R223 that a command or reset produces: code 5 never
(`41_solver.md` R146), codes 11 to 15 never (R221), the field number fits the code (R222), and value and max are 0
where the code carries none. -/
def Status.legal (st : Status) : Bool :=
  if st.code = 0#4 then st.field == 0#4 && st.value == 0#70 && st.max == 0#16
  else if st.code = 6#4 then
    (st.field == 1#4 && st.max == 65535#16) || ((st.field == 2#4 || st.field == 3#4) && st.max == 4095#16)
  else if st.code = 7#4 then 4 ≤ st.field.toNat && st.field.toNat ≤ 7 && st.max == 0#16
  else if st.code = 9#4 then 8 ≤ st.field.toNat && st.field.toNat ≤ 12 && st.value == 0#70 && st.max == 0#16
  else if st.code = 8#4 ∨ st.code = 10#4 then st.field == 0#4 && st.value == 0#70 && st.max == 0#16
  else st.code.toNat ≤ 4 && st.field == 0#4 && st.max == 0#16

/-- The invariants of R47 that hold in every reachable state (items 1 and 4; item 2 follows from item 1, and item 3 is
about the last writer of `SET`). -/
structure State.Inv (s : State) : Prop where
  /-- `REG_VALID = 1` implies `SET_VALID = 1`. -/
  setValid : s.regValid = true → s.setValid = true
  /-- `REG[0..5]` equal the words that the packer gives for the current `SET` and the Options as they were then. -/
  words : s.regValid = true → ∃ o : Options, pack Config.standard o true s.settings = .ok s.words
  /-- `STATUS` holds a form that some command produces. -/
  status : s.status.legal = true

/-- A Settings value has no bit above the widths of the configuration (`00_scope.md` R6). -/
structure Settings.Fits (c : Config) (v : Settings) : Prop where
  int : v.int.toNat < 2 ^ c.wInt
  frac : v.frac.toNat < 2 ^ c.wFrac
  mod : v.mod.toNat < 2 ^ c.wMod

/-- No port and no register that holds a value has a bit above the widths `W_HZ`, `W_INT`, `W_FRAC`, `W_MOD` of the
configuration: the machine whose registers have these widths is the carriers of `State` under this invariant (R6, D4,
D5; log entry 6). Every state fits the stated widths, which are those of the carriers. -/
structure State.Fits (c : Config) (s : State) : Prop where
  freqHz : s.freqHz.toNat < 2 ^ c.wHz
  refHz : s.opt.refHz.toNat < 2 ^ c.wHz
  spacingHz : s.opt.spacingHz.toNat < 2 ^ c.wHz
  setIn : s.setIn.Fits c
  settings : s.setValid = true → s.settings.Fits c
  status : s.status.value.toNat < 2 ^ c.wInt

/-- What the host can see of the block (`40_commands.md` R117): the bits of a group that holds no value are not part of
it. -/
structure View where
  settings : Option Settings
  words : Option Words
  status : Status
  deriving DecidableEq, Repr

/-- The observable part of the block. -/
def view (s : State) : View := ⟨settingsPort s, wordsPort s, s.status⟩

/-- `STATUS` reads as these four numbers (`10_state.md` R43). -/
def Status.reads (st : Status) (code field value max : Nat) : Prop :=
  st.code.toNat = code ∧ st.field.toNat = field ∧ st.value.toNat = value ∧ st.max.toNat = max

/-- What a failed `SOLVE` writes (`40_commands.md` R119, `60_exceptions.md` R224): `STATUS` and both flags, now 0. `SET`
holds no value (its bits, and the counter of free values, are whatever `t` has); everything else is as it was. -/
def SolveFailed (s t : State) : Prop :=
  t = { s with
    settings := t.settings, setValid := false, regValid := false, status := t.status, freeCount := t.freeCount }

/-- What a failed `PACK` writes (R119, R224): `STATUS`, and `REG_VALID`, now 0. The words hold no value; everything
else, `SET` and `SET_VALID` among it, is as it was. -/
def PackFailed (s t : State) : Prop :=
  t = { s with words := t.words, regValid := false, status := t.status, freeCount := t.freeCount }

/-- What a successful `SOLVE` writes (`41_solver.md` R147): `SET`, the flags and `STATUS`, now `OK`. -/
def SolveDone (s t : State) : Prop :=
  t = { s with settings := t.settings, setValid := true, regValid := false, status := Status.ok }

/-- What a successful `PACK` writes (`43_packer.md` R205): the words, `REG_VALID` and `STATUS`, now `OK`. -/
def PackDone (s t : State) : Prop := t = { s with words := t.words, regValid := true, status := Status.ok }

/-- The intermediate values of one solve, by the names of `41_solver.md` R130. -/
structure Plan where
  pfd : Nat
  d : Nat
  n1000 : Nat
  int : Nat
  mod0 : Nat
  frac0 : Nat
  mod : Nat
  frac : Nat
  b : Nat
  bscHz : Nat
  deriving DecidableEq, Repr

/-- The values that the rules of `41_solver.md` give for the frequency `f` and the Options `o`, in the rules' own
numbers and not in the functions of `Machine/Solver.lean`: the statements about `SOLVE` are made with these. Where a
divisor is 0 the rule gives no value, and the statement that uses the field says that it is not. -/
structure Plan.Of (p : Plan) (f : Nat) (o : Options) : Prop where
  /-- R131 -/
  pfd : p.pfd = o.refHz.toNat * (if o.refDbl = 1 then 2 else 1) / (if o.refHalf = 1 then 2 else 1) / o.rCounter.toNat
  /-- R132, the table of thresholds -/
  d : p.d = if 2200000000 ≤ f then 1 else if 1100000000 ≤ f then 2 else if 550000000 ≤ f then 4
    else if 275000000 ≤ f then 8 else if 137500000 ≤ f then 16 else if 68750000 ≤ f then 32 else 64
  /-- R134 -/
  n1000 : p.n1000 = if o.fbSel = 1 then f * p.d * 1000 / p.pfd else f * 1000 / p.pfd
  /-- R135 -/
  int : p.int = p.n1000 / 1000
  /-- R136 -/
  mod0 : p.mod0 = o.refHz.toNat / o.spacingHz.toNat
  /-- R137 -/
  frac0 : p.frac0 = p.n1000 % 1000 * p.mod0 / 1000
  /-- R138, R139 -/
  mod : p.mod =
    if (if o.gcdEn = 1 then p.mod0 / Nat.gcd p.mod0 p.frac0 else p.mod0) = 1 then 2
    else if o.gcdEn = 1 then p.mod0 / Nat.gcd p.mod0 p.frac0 else p.mod0
  /-- R138 -/
  frac : p.frac = if o.gcdEn = 1 then p.frac0 / Nat.gcd p.mod0 p.frac0 else p.frac0
  /-- R144 with `BSC_ROUNDING = floor_of_product` -/
  b : p.b = if o.bscDivIn = 0 ∧ o.bscMode = 0 then min (8 * p.pfd / 1000000) 255 else o.bscDivIn.toNat
  /-- R145 -/
  bscHz : p.bscHz = p.pfd / p.b

/-- The four divisors that come before step 7 are not 0 (R131, R134, R136, R138). -/
def Plan.divisorsOk (p : Plan) (o : Options) : Prop :=
  o.rCounter ≠ 0 ∧ p.pfd ≠ 0 ∧ o.spacingHz ≠ 0 ∧ (o.gcdEn = 1 → p.mod0 ≠ 0)

/-- Step 7 passes (R140, R141, R142). -/
def Plan.legal (p : Plan) (o : Options) : Prop :=
  ¬(32000000 < p.pfd ∧ p.frac ≠ 0) ∧ ¬(90000000 < p.pfd ∧ p.frac = 0 ∧ o.variant = 1) ∧
    ¬(p.frac = 0 ∧ o.variant = 1 ∧ o.bscMode = 0 ∧ 32000000 < p.pfd)

/-- `SET` passes the range checks of `PACK` (`43_packer.md` R186 to R189). -/
def State.inRange (s : State) : Prop :=
  s.setValid = true ∧ s.settings.int.toNat ≤ 65535 ∧ s.settings.frac.toNat ≤ 4095 ∧ s.settings.mod.toNat ≤ 4095

/-- The four table inputs are hits at these indices of `CP_TABLE`, `ABP_TABLE` and `PWR_TABLE`: the entry there is the
input (`42_lut_encoder.md` R170 to R173). -/
def Options.hits (o : Options) (cp abp pw ax : Nat) : Prop :=
  Config.standard.cpTable[cp]? = some o.cpCurrent.toNat ∧ Config.standard.abpTable[abp]? = some o.abpWidth.toNat ∧
    Config.standard.pwrTable[pw]? = some o.outPwr.toInt ∧ Config.standard.pwrTable[ax]? = some o.auxPwr.toInt

end Sys2Proof.Machine
end

