-- ==== Sys2Proof/Certificates/Slice0/Obligations.lean ====
section
/-! DEFINITION. The statements for the provers. Each docstring names the rule of `spec/` that the statement formalises.
The vocabulary (`Plan.Of`, `SolveDone`, `SolveFailed`, `PackDone`, `PackFailed`, `State.Inv`, `view`) is that of
`Sys2Proof/Safety.lean`. -/

open Sys2Proof Sys2Proof.Machine

/-! ## The two small commands -/

/-- R112: the code `00` is `NOP`; it completes and every element keeps its value. -/
def Obligations.NopKeepsEverything : Prop :=
  ∀ (s : State) (v : Bit), decode v [0b00] = .ok .nop ∧ exec .nop s = .next s

/-- R114: the code `11` is `LDSET`; it completes; `SET` takes the `set_in` ports, `SET_VALID` is 1, `REG_VALID` is 0, nothing else changes. -/
def Obligations.LdsetLoadsSettings : Prop :=
  ∀ (s : State) (v : Bit), decode v [0b11] = .ok .ldset ∧
    exec .ldset s = .next { s with settings := s.setIn, setValid := true, regValid := false }

/-! ## SOLVE -/

/-- R131 to R139, R144, R145, R147: when no divisor is 0, step 7 passes and the band-select clock is at most 500 kHz,
`SOLVE` completes, writes the five values of the rules into `SET` without losing a bit, sets the flags and `STATUS`, and
changes nothing else. -/
def Obligations.SolveSucceeds : Prop :=
  ∀ (s : State) (p : Plan), p.Of s.freqHz.toNat s.opt → p.divisorsOk s.opt → p.legal s.opt → p.b ≠ 0 →
    p.bscHz ≤ 500000 →
    ∃ t, exec .solve s = .next t ∧ SolveDone s t ∧ t.settings.int.toNat = p.int ∧ t.settings.frac.toNat = p.frac ∧
      t.settings.mod.toNat = p.mod ∧ t.settings.outdiv.toNat = p.d ∧ t.settings.bscdiv.toNat = p.b

/-- R226, R148: each of the five divisors that is 0, met in the order of the steps, ends `SOLVE` with `DivideByZero`
naming it. -/
def Obligations.SolveReportsZeroDivisor : Prop :=
  ∀ (s : State) (p : Plan), p.Of s.freqHz.toNat s.opt →
    (s.opt.rCounter = 0 → ∃ t, exec .solve s = .next t ∧ SolveFailed s t ∧ t.status.reads 9 8 0 0) ∧
    (s.opt.rCounter ≠ 0 → p.pfd = 0 → ∃ t, exec .solve s = .next t ∧ SolveFailed s t ∧ t.status.reads 9 9 0 0) ∧
    (s.opt.rCounter ≠ 0 → p.pfd ≠ 0 → s.opt.spacingHz = 0 →
      ∃ t, exec .solve s = .next t ∧ SolveFailed s t ∧ t.status.reads 9 10 0 0) ∧
    (s.opt.rCounter ≠ 0 → p.pfd ≠ 0 → s.opt.spacingHz ≠ 0 → s.opt.gcdEn = 1 → Nat.gcd p.mod0 p.frac0 = 0 →
      ∃ t, exec .solve s = .next t ∧ SolveFailed s t ∧ t.status.reads 9 11 0 0) ∧
    (p.divisorsOk s.opt → p.legal s.opt → p.b = 0 →
      ∃ t, exec .solve s = .next t ∧ SolveFailed s t ∧ t.status.reads 9 12 0 0)

/-- R140, R141, R142: each legality check of step 7, in order, with the PFD frequency as payload; and each of the three
errors is reported exactly then. -/
def Obligations.SolveRejectsIllegalPfd : Prop :=
  ∀ (s : State) (p : Plan), p.Of s.freqHz.toNat s.opt → p.divisorsOk s.opt →
    (32000000 < p.pfd → p.frac ≠ 0 →
      ∃ t, exec .solve s = .next t ∧ SolveFailed s t ∧ t.status.reads 1 0 p.pfd 0) ∧
    (90000000 < p.pfd → p.frac = 0 → s.opt.variant = 1 →
      ∃ t, exec .solve s = .next t ∧ SolveFailed s t ∧ t.status.reads 2 0 p.pfd 0) ∧
    (p.frac = 0 → s.opt.variant = 1 → s.opt.bscMode = 0 → 32000000 < p.pfd → p.pfd ≤ 90000000 →
      ∃ t, exec .solve s = .next t ∧ SolveFailed s t ∧ t.status.reads 3 0 p.pfd 0) ∧
    (∃ t, exec .solve s = .next t ∧ (t.status.code = 1 ↔ 32000000 < p.pfd ∧ p.frac ≠ 0) ∧
      (t.status.code = 2 ↔ 90000000 < p.pfd ∧ p.frac = 0 ∧ s.opt.variant = 1) ∧
      (t.status.code = 3 ↔
        p.frac = 0 ∧ s.opt.variant = 1 ∧ s.opt.bscMode = 0 ∧ 32000000 < p.pfd ∧ p.pfd ≤ 90000000))

/-- R145: a divider of 0 and a band-select clock above 500 kHz end `SOLVE`, the second with the clock as payload; every
other clock passes. -/
def Obligations.SolveRejectsFastBandSelectClock : Prop :=
  ∀ (s : State) (p : Plan), p.Of s.freqHz.toNat s.opt → p.divisorsOk s.opt → p.legal s.opt →
    (p.b = 0 → ∃ t, exec .solve s = .next t ∧ SolveFailed s t ∧ t.status.reads 9 12 0 0) ∧
    (p.b ≠ 0 → 500000 < p.bscHz → ∃ t, exec .solve s = .next t ∧ SolveFailed s t ∧ t.status.reads 4 0 p.bscHz 0) ∧
    (p.b ≠ 0 → p.bscHz ≤ 500000 → ∃ t, exec .solve s = .next t ∧ t.status.reads 0 0 0 0)

/-- R146: the second threshold is dead, in every configuration that orders the two thresholds as the document does, and
`STATUS.code` never takes the value of its error. -/
def Obligations.VariantClockCheckIsDead : Prop :=
  (∀ (c : Config) (f : Hz) (o : Options) (n : Nat), c.bscMaxHz ≤ c.bscVariantMaxHz →
      solve c f o ≠ .error (.bandSelectClockTooHighForVariant n)) ∧
    ∀ s t : State, exec .solve s = .next t → t.status.code ≠ 5

/-- R132: the thresholds of the output divider; and (as R151 item 3 has it) it never rises with the frequency. -/
def Obligations.OutputDividerThresholds : Prop :=
  (∀ f : Nat, outDiv Config.standard f =
      if 2200000000 ≤ f then 1 else if 1100000000 ≤ f then 2 else if 550000000 ≤ f then 4
      else if 275000000 ≤ f then 8 else if 137500000 ≤ f then 16 else if 68750000 ≤ f then 32 else 64) ∧
    ∀ (c : Config) (f g : Nat), f ≤ g → outDiv c g ≤ outDiv c f

/-- R138: the reduction is idempotent and never changes whether FRAC is 0. -/
def Obligations.ReductionIsIdempotent : Prop :=
  ∀ m n : Nat, Nat.gcd m n ≠ 0 → reduce (reduce (m, n)) = reduce (m, n) ∧ ((reduce (m, n)).2 = 0 ↔ n = 0)

/-- R149: the bounds from which the widths follow. -/
def Obligations.SolverValuesStayInBounds : Prop :=
  ∀ (f : Hz) (o : Options),
    o.refHz.toNat * twoIf o.refDbl ≤ 2 * (2 ^ 64 - 1) ∧ pfd o ≤ 2 * (2 ^ 64 - 1) ∧ f.toNat * outDiv Config.standard f.toNat * 1000 < 2 ^ 80 ∧
    n1000 Config.standard f.toNat o < 2 ^ 80 ∧ intPart Config.standard f.toNat o ≤ 64 * (2 ^ 64 - 1) ∧
    mod0 o ≤ 2 ^ 64 - 1 ∧ (reduced Config.standard f.toNat o).1 ≤ 2 ^ 64 - 1 ∧ modOut Config.standard f.toNat o ≤ 2 ^ 64 - 1 ∧
    n1000 Config.standard f.toNat o % 1000 * mod0 o ≤ 999 * (2 ^ 64 - 1) ∧
    (frac0 Config.standard f.toNat o < mod0 o ∨ frac0 Config.standard f.toNat o = 0) ∧
    fracOut Config.standard f.toNat o ≤ frac0 Config.standard f.toNat o ∧
    8 * pfd o + 999999 < 2 ^ 69 ∧ bscDiv Config.standard o ≤ 255 ∧ bscHz Config.standard o ≤ pfd o

/-- R144: all three roundings agree on whole megahertz, and the first and the third on multiples of 125 kHz. -/
def Obligations.RoundingsAgreeOnWholeSteps : Prop :=
  ∀ (c : Config) (k : Nat), c.bscLowScale = 8 →
    bscScale { c with bscRounding := .floorOfProduct } (1000000 * k) =
        bscScale { c with bscRounding := .productOfFloor } (1000000 * k) ∧
      bscScale { c with bscRounding := .floorOfProduct } (1000000 * k) =
        bscScale { c with bscRounding := .ceilOfProduct } (1000000 * k) ∧
      bscScale { c with bscRounding := .floorOfProduct } (125000 * k) =
        bscScale { c with bscRounding := .ceilOfProduct } (125000 * k)

/-- R145, corner cases: with a derived divider the clock check cannot fail for 125 kHz to 127 500 254 Hz, and at the cap
it fails exactly from 127 500 255 Hz on. -/
def Obligations.DerivedDividerKeepsClockLegal : Prop :=
  ∀ o : Options, o.bscDivIn = 0 → o.bscMode = 0 →
    (125000 ≤ pfd o → pfd o ≤ 127500254 →
      bscDiv Config.standard o ≠ 0 ∧ bscHz Config.standard o ≤ 500000) ∧
    (32000000 ≤ pfd o →
      bscDiv Config.standard o = 255 ∧ (500000 < bscHz Config.standard o ↔ 127500255 ≤ pfd o))

/-- R47 item 3, R139, R151 items 1, 3 and 5: what a successful `SOLVE` guarantees of `SET`. -/
def Obligations.SolveGuarantees : Prop :=
  ∀ s t : State, exec .solve s = .next t → t.setValid = true →
    t.settings.mod ≠ 1 ∧ t.settings.outdiv ∈ ([1, 2, 4, 8, 16, 32, 64] : List (BitVec 8)) ∧ t.settings.bscdiv ≠ 0 ∧
      (t.settings.frac < t.settings.mod ∨ t.settings.frac = 0)

/-- R155: `SOLVE` depends on `freq_hz` and ten Options ports only. -/
def Obligations.SolveReadsOnlyItsPorts : Prop :=
  ∀ a b s t : State, a.freqHz = b.freqHz → a.opt.refHz = b.opt.refHz → a.opt.refDbl = b.opt.refDbl →
    a.opt.refHalf = b.opt.refHalf → a.opt.rCounter = b.opt.rCounter → a.opt.fbSel = b.opt.fbSel →
    a.opt.spacingHz = b.opt.spacingHz → a.opt.gcdEn = b.opt.gcdEn → a.opt.variant = b.opt.variant →
    a.opt.bscMode = b.opt.bscMode → a.opt.bscDivIn = b.opt.bscDivIn →
    exec .solve a = .next s → exec .solve b = .next t →
      settingsPort s = settingsPort t ∧ s.setValid = t.setValid ∧ s.regValid = t.regValid ∧ s.status = t.status

/-! ## PACK -/

/-- R198 to R203, R205: when `SET` is valid and in range, the four table inputs are entries and the divider
is a power of two up to 64, `PACK` completes, writes the six words, each the sum of its fields at their places, and
changes nothing else but `REG_VALID` and `STATUS`. -/
def Obligations.PackWritesSixWords : Prop :=
  ∀ (s : State) (cp abp pw ax sel : Nat), s.inRange → s.opt.hits cp abp pw ax → sel ≤ 6 →
    s.settings.outdiv.toNat = 2 ^ sel →
    ∃ t, exec .pack s = .next t ∧ PackDone s t ∧
      t.words.w0.toNat = s.settings.int.toNat * 2 ^ 15 + s.settings.frac.toNat * 2 ^ 3 ∧
      t.words.w1.toNat = (if s.opt.phase = 0 then 0 else 1) * 2 ^ 28 + s.opt.presc89.toNat * 2 ^ 27 +
        (if s.opt.phase = 0 then 1 else 0) * 2 ^ 15 + s.settings.mod.toNat * 2 ^ 3 + 1 ∧
      t.words.w2.toNat = s.opt.noiseMode.toNat * 2 ^ 29 + s.opt.muxout.toNat * 2 ^ 26 + s.opt.refDbl.toNat * 2 ^ 25 +
        s.opt.refHalf.toNat * 2 ^ 24 + s.opt.rCounter.toNat * 2 ^ 14 + s.opt.dblBuf.toNat * 2 ^ 13 + cp * 2 ^ 9 +
        (if s.settings.frac = 0 then 0 else 1) * 2 ^ 8 + abp * 2 ^ 7 + s.opt.pdPol.toNat * 2 ^ 6 +
        s.opt.pwrDn.toNat * 2 ^ 5 + s.opt.cpTri.toNat * 2 ^ 4 + s.opt.cntRst.toNat * 2 ^ 3 + 2 ∧
      t.words.w3.toNat = s.opt.csr.toNat * 2 ^ 18 + s.opt.clkdivMode.toNat * 2 ^ 15 + s.opt.clkdivVal.toNat * 2 ^ 3 +
        3 + (if s.opt.variant = 1 then
          s.opt.bscMode.toNat * 2 ^ 23 + abp * 2 ^ 22 + s.opt.chgCancel.toNat * 2 ^ 21 else 0) ∧
      t.words.w4.toNat = s.opt.fbSel.toNat * 2 ^ 23 + sel * 2 ^ 20 + s.settings.bscdiv.toNat * 2 ^ 12 +
        s.opt.vcoPd.toNat * 2 ^ 11 + s.opt.mtld.toNat * 2 ^ 10 + s.opt.auxSel.toNat * 2 ^ 9 +
        s.opt.auxEn.toNat * 2 ^ 8 + ax * 2 ^ 6 + s.opt.outEn.toNat * 2 ^ 5 + pw * 2 ^ 3 + 4 ∧
      t.words.w5.toNat = s.opt.ldPin.toNat * 2 ^ 22 + 3 * 2 ^ 19 + 5

/-- R186: `PACK` without a Settings value ends with `NoSettings`. -/
def Obligations.PackNeedsSettings : Prop :=
  ∀ s : State, s.setValid = false → ∃ t, exec .pack s = .next t ∧ PackFailed s t ∧ t.status.reads 10 0 0 0

/-- R187, R188, R189: the range checks, in order, with value and limit as payload; and each is reported exactly then. -/
def Obligations.PackRangeChecks : Prop :=
  ∀ s : State, s.setValid = true →
    (65535 < s.settings.int.toNat →
      ∃ t, exec .pack s = .next t ∧ PackFailed s t ∧ t.status.reads 6 1 s.settings.int.toNat 65535) ∧
    (s.settings.int.toNat ≤ 65535 → 4095 < s.settings.frac.toNat →
      ∃ t, exec .pack s = .next t ∧ PackFailed s t ∧ t.status.reads 6 2 s.settings.frac.toNat 4095) ∧
    (s.settings.int.toNat ≤ 65535 → s.settings.frac.toNat ≤ 4095 → 4095 < s.settings.mod.toNat →
      ∃ t, exec .pack s = .next t ∧ PackFailed s t ∧ t.status.reads 6 3 s.settings.mod.toNat 4095) ∧
    (∃ t, exec .pack s = .next t ∧ (t.status.field = 1 ↔ 65535 < s.settings.int.toNat) ∧
      (t.status.field = 2 ↔ s.settings.int.toNat ≤ 65535 ∧ 4095 < s.settings.frac.toNat) ∧
      (t.status.field = 3 ↔
        s.settings.int.toNat ≤ 65535 ∧ s.settings.frac.toNat ≤ 4095 ∧ 4095 < s.settings.mod.toNat))

/-- R190 to R193: the four lookups, in order, on both variants, with the port as driven as payload. -/
def Obligations.PackLookupMisses : Prop :=
  ∀ s : State, s.inRange →
    (s.opt.cpCurrent.toNat ∉ Config.standard.cpTable →
      ∃ t, exec .pack s = .next t ∧ PackFailed s t ∧ t.status.reads 7 4 s.opt.cpCurrent.toNat 0) ∧
    (s.opt.cpCurrent.toNat ∈ Config.standard.cpTable → s.opt.abpWidth.toNat ∉ Config.standard.abpTable →
      ∃ t, exec .pack s = .next t ∧ PackFailed s t ∧ t.status.reads 7 5 s.opt.abpWidth.toNat 0) ∧
    (s.opt.cpCurrent.toNat ∈ Config.standard.cpTable → s.opt.abpWidth.toNat ∈ Config.standard.abpTable →
      s.opt.outPwr.toInt ∉ Config.standard.pwrTable →
      ∃ t, exec .pack s = .next t ∧ PackFailed s t ∧ t.status.reads 7 6 s.opt.outPwr.toNat 0) ∧
    (s.opt.cpCurrent.toNat ∈ Config.standard.cpTable → s.opt.abpWidth.toNat ∈ Config.standard.abpTable →
      s.opt.outPwr.toInt ∈ Config.standard.pwrTable → s.opt.auxPwr.toInt ∉ Config.standard.pwrTable →
      ∃ t, exec .pack s = .next t ∧ PackFailed s t ∧ t.status.reads 7 7 s.opt.auxPwr.toNat 0)

/-- R194: a divider that is not one of the seven ends `PACK` with `InvalidOutputDividerSelect`. -/
def Obligations.PackRejectsOtherDividers : Prop :=
  ∀ (s : State) (cp abp pw ax : Nat), s.inRange → s.opt.hits cp abp pw ax →
    s.settings.outdiv ∉ ([1, 2, 4, 8, 16, 32, 64] : List (BitVec 8)) →
    ∃ t, exec .pack s = .next t ∧ PackFailed s t ∧ t.status.reads 8 0 0 0

/-- R208: `PACK` depends on `SET_VALID`, `SET` and the Options without the four it does not read. -/
def Obligations.PackReadsOnlyItsOperands : Prop :=
  ∀ a b s t : State, a.setValid = b.setValid → a.settings = b.settings →
    { a.opt with refHz := b.opt.refHz, spacingHz := b.opt.spacingHz, gcdEn := b.opt.gcdEn,
                 bscDivIn := b.opt.bscDivIn } = b.opt →
    exec .pack a = .next s → exec .pack b = .next t →
      wordsPort s = wordsPort t ∧ s.regValid = t.regValid ∧ s.status = t.status

/-- R204: which word depends on which operand; between two successful `PACK`s an operand not in a word's row cannot
change that word. -/
def Obligations.WordDependencies : Prop :=
  ∀ a b s t : State, exec .pack a = .next s → exec .pack b = .next t → s.regValid = true → t.regValid = true →
    (a.settings.int = b.settings.int → a.settings.frac = b.settings.frac → s.words.w0 = t.words.w0) ∧
    ((a.opt.phase = 0 ↔ b.opt.phase = 0) → a.opt.presc89 = b.opt.presc89 → a.settings.mod = b.settings.mod →
      s.words.w1 = t.words.w1) ∧
    (a.opt.noiseMode = b.opt.noiseMode → a.opt.muxout = b.opt.muxout → a.opt.refDbl = b.opt.refDbl →
      a.opt.refHalf = b.opt.refHalf → a.opt.rCounter = b.opt.rCounter → a.opt.dblBuf = b.opt.dblBuf →
      a.opt.cpCurrent = b.opt.cpCurrent → (a.settings.frac = 0 ↔ b.settings.frac = 0) →
      a.opt.abpWidth = b.opt.abpWidth → a.opt.pdPol = b.opt.pdPol → a.opt.pwrDn = b.opt.pwrDn →
      a.opt.cpTri = b.opt.cpTri → a.opt.cntRst = b.opt.cntRst → s.words.w2 = t.words.w2) ∧
    (a.opt.csr = b.opt.csr → a.opt.clkdivMode = b.opt.clkdivMode → a.opt.clkdivVal = b.opt.clkdivVal →
      a.opt.variant = b.opt.variant →
      (a.opt.variant = 1 → a.opt.bscMode = b.opt.bscMode ∧ a.opt.abpWidth = b.opt.abpWidth ∧
        a.opt.chgCancel = b.opt.chgCancel) →
      s.words.w3 = t.words.w3) ∧
    (a.opt.fbSel = b.opt.fbSel → a.settings.outdiv = b.settings.outdiv → a.settings.bscdiv = b.settings.bscdiv →
      a.opt.vcoPd = b.opt.vcoPd → a.opt.mtld = b.opt.mtld → a.opt.auxSel = b.opt.auxSel →
      a.opt.auxEn = b.opt.auxEn → a.opt.auxPwr = b.opt.auxPwr → a.opt.outEn = b.opt.outEn →
      a.opt.outPwr = b.opt.outPwr → s.words.w4 = t.words.w4) ∧
    (a.opt.ldPin = b.opt.ldPin → s.words.w5 = t.words.w5)

/-- R207: unpacking the words of a successful `PACK` gives back every operand that the layout holds. -/
def Obligations.UnpackRecoversOperands : Prop :=
  ∀ s t : State, exec .pack s = .next t → t.regValid = true →
    (unpack t.words).int.toNat = s.settings.int.toNat ∧ (unpack t.words).frac.toNat = s.settings.frac.toNat ∧
    (unpack t.words).mod.toNat = s.settings.mod.toNat ∧ (unpack t.words).outdiv = s.settings.outdiv.toNat ∧
    (unpack t.words).bscDiv = s.settings.bscdiv ∧
    (unpack t.words).phaseZ.toNat = (if s.opt.phase = 0 then 1 else 0) ∧
    (unpack t.words).phaseNz.toNat = 1 - (unpack t.words).phaseZ.toNat ∧
    (unpack t.words).fracNz.toNat = (if s.settings.frac = 0 then 0 else 1) ∧
    (unpack t.words).cpCurrent Config.standard = some s.opt.cpCurrent.toNat ∧
    (unpack t.words).abpWidth Config.standard = some s.opt.abpWidth.toNat ∧
    (unpack t.words).outPower Config.standard = some s.opt.outPwr.toInt ∧
    (unpack t.words).auxPower Config.standard = some s.opt.auxPwr.toInt ∧
    (unpack t.words).presc89 = s.opt.presc89 ∧ (unpack t.words).noiseMode = s.opt.noiseMode ∧
    (unpack t.words).muxout = s.opt.muxout ∧ (unpack t.words).refDbl = s.opt.refDbl ∧
    (unpack t.words).refHalf = s.opt.refHalf ∧ (unpack t.words).rCounter = s.opt.rCounter ∧
    (unpack t.words).dblBuf = s.opt.dblBuf ∧ (unpack t.words).pdPol = s.opt.pdPol ∧
    (unpack t.words).pwrDn = s.opt.pwrDn ∧ (unpack t.words).cpTri = s.opt.cpTri ∧
    (unpack t.words).cntRst = s.opt.cntRst ∧ (unpack t.words).csr = s.opt.csr ∧
    (unpack t.words).clkdivMode = s.opt.clkdivMode ∧ (unpack t.words).clkdivVal = s.opt.clkdivVal ∧
    (unpack t.words).fbSel = s.opt.fbSel ∧ (unpack t.words).vcoPd = s.opt.vcoPd ∧
    (unpack t.words).mtld = s.opt.mtld ∧ (unpack t.words).auxSel = s.opt.auxSel ∧
    (unpack t.words).auxEn = s.opt.auxEn ∧ (unpack t.words).outEn = s.opt.outEn ∧
    (unpack t.words).ldPin = s.opt.ldPin ∧
    (s.opt.variant = 1 → (unpack t.words).bscMode = s.opt.bscMode ∧ (unpack t.words).chgCancel = s.opt.chgCancel ∧
      (unpack t.words).abpWidthFull Config.standard = some s.opt.abpWidth.toNat) ∧
    (s.opt.variant = 0 → (unpack t.words).bscMode = 0 ∧ (unpack t.words).abpIdx = 0 ∧
      (unpack t.words).chgCancel = 0) ∧
    ∀ (k : BitVec 3) (w : Word), wordAt t.words k = some w → field w 0 3 = k

/-- R90, R91: every word of a successful `PACK` is in the format of its address, with no field value that is never
produced; on `LEGACY` word 3 has bits [23:21] clear. -/
def Obligations.PackedWordsAreWellFormed : Prop :=
  ∀ (s t : State) (k : BitVec 3) (w : Word), exec .pack s = .next t → t.regValid = true → wordAt t.words k = some w →
    (∃ i, decodeWord s.opt.variant w = .ok i ∧ i.wellFormed s.opt.variant = true) ∧ k ≠ 6 ∧ k ≠ 7 ∧
      field w 0 3 = k ∧ (s.opt.variant = 0 → k = 3 → field w 21 3 = 0)

/-! ## The word formats and the read port -/

/-- The meaning of a word format is the model's choice (log entry 3), on the ground of R62 and R115: when the read port
shows the word whose fields, at the places of R83 to R88, are these, each of the seven formats completes: the host
receives that word, and nothing else changes. -/
def Obligations.ReadDeliversEveryFormat : Prop :=
  ∀ (s : State) (w : Word), s.regValid = true → wordAt s.words s.rdIdx = some w →
    (∀ (int : BitVec 16) (frac : BitVec 12), w.toNat = int.toNat * 2 ^ 15 + frac.toNat * 2 ^ 3 →
      exec (.r0 int frac) s = .next { s with hostWord := w }) ∧
    (∀ (nz p89 z : Bit) (mod : BitVec 12),
      w.toNat = nz.toNat * 2 ^ 28 + p89.toNat * 2 ^ 27 + z.toNat * 2 ^ 15 + mod.toNat * 2 ^ 3 + 1 →
      exec (.r1 nz p89 z mod) s = .next { s with hostWord := w }) ∧
    (∀ (nm : BitVec 2) (mx : BitVec 3) (rd rh : Bit) (rc : BitVec 10) (db : Bit) (cp : BitVec 4)
        (fn an pp pd ct cr : Bit),
      w.toNat = nm.toNat * 2 ^ 29 + mx.toNat * 2 ^ 26 + rd.toNat * 2 ^ 25 + rh.toNat * 2 ^ 24 + rc.toNat * 2 ^ 14 +
        db.toNat * 2 ^ 13 + cp.toNat * 2 ^ 9 + fn.toNat * 2 ^ 8 + an.toNat * 2 ^ 7 + pp.toNat * 2 ^ 6 +
        pd.toNat * 2 ^ 5 + ct.toNat * 2 ^ 4 + cr.toNat * 2 ^ 3 + 2 →
      exec (.r2 nm mx rd rh rc db cp fn an pp pd ct cr) s = .next { s with hostWord := w }) ∧
    (∀ (csr : Bit) (cm : BitVec 2) (cv : BitVec 12),
      w.toNat = csr.toNat * 2 ^ 18 + cm.toNat * 2 ^ 15 + cv.toNat * 2 ^ 3 + 3 →
      exec (.r3Legacy csr cm cv) s = .next { s with hostWord := w }) ∧
    (∀ (bm ai cc csr : Bit) (cm : BitVec 2) (cv : BitVec 12),
      w.toNat = bm.toNat * 2 ^ 23 + ai.toNat * 2 ^ 22 + cc.toNat * 2 ^ 21 + csr.toNat * 2 ^ 18 + cm.toNat * 2 ^ 15 +
        cv.toNat * 2 ^ 3 + 3 →
      exec (.r3Full bm ai cc csr cm cv) s = .next { s with hostWord := w }) ∧
    (∀ (fb : Bit) (os : BitVec 3) (bd : BitVec 8) (vp ml as_ ae : Bit) (ap : BitVec 2) (oe : Bit) (op : BitVec 2),
      w.toNat = fb.toNat * 2 ^ 23 + os.toNat * 2 ^ 20 + bd.toNat * 2 ^ 12 + vp.toNat * 2 ^ 11 + ml.toNat * 2 ^ 10 +
        as_.toNat * 2 ^ 9 + ae.toNat * 2 ^ 8 + ap.toNat * 2 ^ 6 + oe.toNat * 2 ^ 5 + op.toNat * 2 ^ 3 + 4 →
      exec (.r4 fb os bd vp ml as_ ae ap oe op) s = .next { s with hostWord := w }) ∧
    (∀ lp : BitVec 2, w.toNat = lp.toNat * 2 ^ 22 + 3 * 2 ^ 19 + 5 →
      exec (.r5 lp) s = .next { s with hostWord := w })

/-- The model's choice (log entry 3), on the ground of R62: a word format whose word the read port does not show stops;
no word is made up and nothing is written. -/
def Obligations.FormatStopsWithoutItsWord : Prop :=
  ∀ (s : State) (i : Instr), i ≠ .nop → i ≠ .solve → i ≠ .pack → i ≠ .ldset →
    (∀ w, wordPort s = .ok w → encode i ≠ wordBytes w) → exec i s = .fault .wordNotOnPort

/-- R62, R64: a read of a location returns its word to the host and changes nothing else; a read of index 6 or 7, or
while `REG_VALID = 0`, gives no value. That the word lands in `hostWord` and that a read without a value stops are the
model's choice (log entry 3). -/
def Obligations.HostReadReturnsTheWord : Prop :=
  ∀ s : State, s.Inv → s.rst = 0 → s.act = .read →
    (∀ w, s.regValid = true → wordAt s.words s.rdIdx = some w → step s = .next { s with hostWord := w }) ∧
    (5 < s.rdIdx.toNat → step s = .fault .readNoLocation) ∧
    (s.rdIdx.toNat ≤ 5 → s.regValid = false → step s = .fault .readNoValue)

/-- R68: the 24 bytes, word 5 first and word 0 last, each most significant byte first; defined only while
`REG_VALID = 1`. -/
def Obligations.SerializeOrder : Prop :=
  ∀ s : State,
    (s.regValid = false → serialize s = none) ∧
    (s.regValid = true → ∃ bs, serialize s = some bs ∧ bs.length = 24 ∧
      ∀ (k : BitVec 3) (w : Word), wordAt s.words k = some w →
        bs[4 * (5 - k.toNat)]?.map (·.toNat) = some (w.toNat / 2 ^ 24) ∧
        bs[4 * (5 - k.toNat) + 1]?.map (·.toNat) = some (w.toNat / 2 ^ 16 % 2 ^ 8) ∧
        bs[4 * (5 - k.toNat) + 2]?.map (·.toNat) = some (w.toNat / 2 ^ 8 % 2 ^ 8) ∧
        bs[4 * (5 - k.toNat) + 3]?.map (·.toNat) = some (w.toNat % 2 ^ 8))

/-! ## The step, reset, and the whole machine -/

/-- R110, with the host's act held in the state (the model's choice, log entry 1): when what the host puts before the
block decodes to `i`, and `rst` is not asserted, the step is `exec i` at that same state; nothing is added around it. -/
def Obligations.StepRunsTheDecodedInstruction : Prop :=
  ∀ (s : State) (bs : List Byte) (i : Instr), s.rst = 0 → fetch s = .ok bs → decode s.opt.variant bs = .ok i →
    step s = exec i s

/-- R81: the command port selects the command of a step. -/
def Obligations.CommandPortSelectsTheCommand : Prop :=
  ∀ s : State, s.rst = 0 → s.act = .command →
    (s.cmd = 0b00 → step s = exec .nop s) ∧ (s.cmd = 0b01 → step s = exec .solve s) ∧
    (s.cmd = 0b10 → step s = exec .pack s) ∧ (s.cmd = 0b11 → step s = exec .ldset s)

/-- R250, R251, R253: while `rst` is asserted the step gives the reset values whatever the command is, and the input
ports are not touched. -/
def Obligations.ResetWinsOverTheCommand : Prop :=
  ∀ s : State, s.rst = 1 →
    ∃ t, step s = .next t ∧ t.setValid = false ∧ t.regValid = false ∧ t.status.reads 0 0 0 0 ∧ ports t = ports s ∧
      t.rst = s.rst ∧ t.act = s.act ∧ t.hostWord = s.hostWord

/-- R46: the values the spec gives for reset; `SET` and the words hold no value. -/
def Obligations.ResetValues : Prop :=
  State.reset.setValid = false ∧ settingsPort State.reset = none ∧ State.reset.regValid = false ∧
    wordsPort State.reset = none ∧ State.reset.status.reads 0 0 0 0

/-- R47 at reset. -/
def Obligations.ResetMeetsTheInvariant : Prop := State.reset.Inv

/-- R47 items 1 and 4: every step, from every state that meets the invariant, gives a state that meets it. -/
def Obligations.StepKeepsTheInvariant : Prop := ∀ s t : State, s.Inv → step s = .next t → t.Inv

/-- R47 item 2: what the invariant says of valid words. -/
def Obligations.ValidWordsCarryTheirAddress : Prop :=
  ∀ s : State, s.Inv → s.regValid = true →
    s.inRange ∧ s.settings.outdiv ∈ ([1, 2, 4, 8, 16, 32, 64] : List (BitVec 8)) ∧
      ∀ (k : BitVec 3) (w : Word), wordAt s.words k = some w → field w 0 3 = k

/-- R119: which command writes what. Each command completes from every state, and `SOLVE`, `PACK` in one of their two
ways. -/
def Obligations.EachCommandWritesItsRow : Prop :=
  ∀ s : State,
    exec .nop s = .next s ∧
    exec .ldset s = .next { s with settings := s.setIn, setValid := true, regValid := false } ∧
    (∃ t, exec .solve s = .next t ∧ (SolveDone s t ∨ (SolveFailed s t ∧ t.status.code ≠ 0))) ∧
    (∃ t, exec .pack s = .next t ∧ (PackDone s t ∨ (PackFailed s t ∧ t.status.code ≠ 0))) ∧
    (s.rst = 1 → ∃ t, step s = .next t ∧ t.setValid = false ∧ t.regValid = false ∧ t.status.reads 0 0 0 0)

/-- R233: which command can end with which code. -/
def Obligations.CodesOfEachCommand : Prop :=
  ∀ s t : State,
    (exec .nop s = .next t → t.status = s.status) ∧ (exec .ldset s = .next t → t.status = s.status) ∧
    (exec .solve s = .next t → t.status.code ∈ ([0, 1, 2, 3, 4, 9] : List (BitVec 4))) ∧
    (exec .pack s = .next t → t.status.code ∈ ([0, 6, 7, 8, 10] : List (BitVec 4))) ∧
    (s.rst = 1 → step s = .next t → t.status.code = 0)

/-- R21: no step writes an input port. -/
def Obligations.NoStepWritesAPort : Prop :=
  ∀ s t : State, step s = .next t → ports t = ports s ∧ t.rst = s.rst

/-- R63: an instruction that changes a word is `PACK`, and after it either all six are those of one `pack` or none
holds a value. -/
def Obligations.OnlyPackWritesWords : Prop :=
  ∀ (i : Instr) (s t : State), exec i s = .next t → t.words ≠ s.words →
    i = .pack ∧ (t.regValid = false ∨ pack Config.standard s.opt s.setValid s.settings = .ok t.words)

/-- R239: every command and reset end in a next state from every state. The only stops of a step are those of the host's
read port (the model's choice, log entry 3), which a state that meets the invariant narrows to the two reads that have
no value. -/
def Obligations.OnlyAReadCanStop : Prop :=
  ∀ s : State,
    ((s.rst = 1 ∨ s.act = .command) → ∃ t, step s = .next t) ∧
    (∀ f, step s = .fault f → f = .readNoLocation ∨ f = .readNoValue) ∧
    (s.Inv → ∀ r, step s ≠ .refused r)

/-- R118 item 3: `SOLVE` then `PACK` twice, with the ports steady, gives what once gives, as far as the host can
see. -/
def Obligations.SolveThenPackIsIdempotent : Prop :=
  ∀ s a b c d : State, exec .solve s = .next a → exec .pack a = .next b → exec .solve b = .next c →
    exec .pack c = .next d → view d = view b

/-- R94: `CALC` is `SOLVE`, then `PACK` if and only if `STATUS` is `OK`. -/
def Obligations.CalcPacksOnlyAfterOk : Prop :=
  ∀ s t : State, runLine .solve s = .next t →
    (t.status.code = 0 → runScript calcScript s = runLine .pack t) ∧
    (t.status.code ≠ 0 → runScript calcScript s = .next t)

/-- R152, R264: a successful `SOLVE` does not promise a successful `PACK`. -/
def Obligations.SolveDoesNotPromisePack : Prop :=
  ∃ s t u : State, exec .solve s = .next t ∧ t.status.code = 0 ∧ exec .pack t = .next u ∧ u.status.code = 6

/-! ## Encodings, tables, status -/

/-- R83 to R88, R96: decode and encode agree, for every row of the table at every value of its fields. R96 offers two
ways to tell the formats of word 3 apart; which words 3 are of which format on which value of the variant port
(`Instr.formatOk`) is log entry 13 (DEDUCED), and that every value of the other fields decodes is log entry 7 (DESIGN
CHOICE). -/
def Obligations.DecodeOfEncode : Prop :=
  ∀ (v : Bit) (i : Instr), i.formatOk v = true → decode v (encode i) = .ok i

/-- R90, R96: what decodes is exactly what the encoder writes: no bit of the bytes is dropped. That its format fits the
variant port (`Instr.formatOk`) is the reading of word 3 of log entry 13 (DEDUCED). -/
def Obligations.EncodeOfDecode : Prop :=
  ∀ (v : Bit) (bs : List Byte) (i : Instr), decode v bs = .ok i → encode i = bs ∧ i.formatOk v = true

/-- The model's decoder accepts a word exactly when its fixed bits agree with `match` under `mask` in some row. The rules
leave this open: R90 only says what a decoder may reject, and R96 offers "pick by the variant, or pick `R3_FULL`". That
a block on `LEGACY` accepts every word of `R3_FULL` is log entry 13 (DEDUCED); that `OUTDIV_SEL` 7 and equal flags of
word 1, which the packer never produces, are accepted is log entry 7 (DESIGN CHOICE). -/
def Obligations.DecoderFollowsTheMasks : Prop :=
  ∀ (v : Bit) (w : Word), (∃ i, decodeWord v w = .ok i) ↔
    (w &&& 0x80000007 = 0x00000000 ∨ w &&& 0xE7FF0007 = 0x00000001 ∨ w &&& 0x80000007 = 0x00000002 ∨
      w &&& 0xFF1A0007 = 0x00000003 ∨ w &&& 0xFF000007 = 0x00000004 ∨ w &&& 0xFF3FFFFF = 0x00180005)

/-- Words written out in the spec decode to what the spec says they hold (`30_encoding.md` R81;
`95_test_vectors.md` X8). -/
def Obligations.SampleWordsDecode : Prop :=
  decodeTableWord 8 0b01 = some .solve ∧ decodeTableWord 8 0b10 = some .pack ∧
    decodeTableWord 32 0x004506A8 = some (.r0 138 213) ∧
    decodeTableWord 32 0x100007D1 = some (.r1 1 0 0 250) ∧
    decodeTableWord 32 0x78006BC2 = some (.r2 3 6 0 0 1 1 5 1 1 1 0 0 0) ∧
    decodeTableWord 32 0x000484B3 = some (.r3Legacy 1 1 150) ∧
    decodeTableWord 32 0x00E484B3 = some (.r3Full 1 1 1 1 1 150) ∧
    decodeTableWord 32 0x00BC8774 = some (.r4 1 3 200 0 1 1 1 1 1 2) ∧
    decodeTableWord 32 0x00580005 = some (.r5 1)

/-- R177: in a table without repeated entries, looking up entry `i` hits `i`; and in any table a hit's index is that of
an equal entry. -/
def Obligations.LookupFindsExactlyTheEntries : Prop :=
  ∀ (T : List Int) (v : Int) (i : Nat),
    (T.Nodup → T[i]? = some v → lookup T v = some i) ∧ (lookup T v = some i → T[i]? = some v)

/-- R175, R178: the output-divider select is the exact logarithm up to 6, and nothing else is a hit. -/
def Obligations.OutputDividerSelect : Prop :=
  ∀ (d : BitVec 8) (n : Nat), outDivSel Config.standard d = some n ↔ n ≤ 6 ∧ d.toNat = 2 ^ n

/-- R174: the configuration of the stated values keeps the document's facts, and the field widths. That 300 is no entry
of `CP_TABLE` and that `PWR_TABLE` repeats none rest on the entries of log entry 5. -/
def Obligations.StandardConfigurationIsSound : Prop := Config.standard.Ok

/-- R93: the four fields of the 94-bit status port. -/
def Obligations.StatusPortLayout : Prop :=
  ∀ st : Status, (statusPort st).extractLsb' 90 4 = st.code ∧ (statusPort st).extractLsb' 86 4 = st.field ∧
    (statusPort st).extractLsb' 16 70 = st.value ∧ (statusPort st).extractLsb' 0 16 = st.max

/-! ## The configuration as an argument (R6)

`exec` and `step` are `execWith` and `stepWith` at the stated values. These statements hold for every configuration that
keeps the side conditions `Config.Ok`: R174, the fixed bits of word 5, and, for the widths, what the derivation of R149
needs. The side conditions on the widths, and the form `State.Fits` of a machine with other widths, are the model's
choice (log entry 6). -/

/-- R6, R9, R149, for widths other than the stated ones (log entry 6): every step keeps every port, every register that
holds a value and the payload of `STATUS` within the widths of the configuration. -/
def Obligations.EveryConfigurationKeepsItsWidths : Prop :=
  ∀ (c : Config) (s t : State), c.Ok → s.Fits c → stepWith c s = .next t → t.Fits c

/-- R6, R9, R147: under every configuration, what a successful `SOLVE` leaves in `SET` is, as numbers, the five exact
values of its steps: no field cuts a bit off. Which parameter a literal of those steps is, where R6 names it
for another step, is log entry 14. -/
def Obligations.EveryConfigurationSolvesExactly : Prop :=
  ∀ (c : Config) (s t : State), c.Ok → s.Fits c → execWith c .solve s = .next t → t.setValid = true →
    t.settings.int.toNat = intPart c s.freqHz.toNat s.opt ∧ t.settings.frac.toNat = fracOut c s.freqHz.toNat s.opt ∧
      t.settings.mod.toNat = modOut c s.freqHz.toNat s.opt ∧ t.settings.outdiv.toNat = outDiv c s.freqHz.toNat ∧
      t.settings.bscdiv.toNat = bscDiv c s.opt

/-- R6, R144: the rounding that the configuration names is the one that a derived divider goes through on its way into
`SET.BSCDIV`, under the configuration's own scale and cap. -/
def Obligations.ConfiguredRoundingReachesSet : Prop :=
  ∀ (c : Config) (s t : State), c.Ok → s.opt.bscDivIn = 0 → s.opt.bscMode = 0 → execWith c .solve s = .next t →
    t.setValid = true →
    (c.bscRounding = .floorOfProduct →
      t.settings.bscdiv.toNat = min (c.bscLowScale * pfd s.opt / 1000000) c.bscDivCap) ∧
    (c.bscRounding = .productOfFloor →
      t.settings.bscdiv.toNat = min (c.bscLowScale * (pfd s.opt / 1000000)) c.bscDivCap) ∧
    (c.bscRounding = .ceilOfProduct →
      t.settings.bscdiv.toNat = min ((c.bscLowScale * pfd s.opt + 999999) / 1000000) c.bscDivCap)

/-- R6, R90, R174: under every configuration, each word of a successful `PACK` carries the address of its location and
decodes, on the variant it was packed for. -/
def Obligations.EveryConfigurationPacksDecodableWords : Prop :=
  ∀ (c : Config) (s t : State) (k : BitVec 3) (w : Word), c.Ok → execWith c .pack s = .next t → t.regValid = true →
    wordAt t.words k = some w → field w 0 3 = k ∧ ∃ i, decodeWord s.opt.variant w = .ok i
end

