-- ==== Sys2Proof/Laws/Config.lean ====
section
/-! SUPPORT. The stated values of rule R6, field by field: no proof unfolds the whole configuration. -/

namespace Sys2Proof

@[simp] theorem standard_vcoMaxHz : Config.standard.vcoMaxHz = 2200000000 := rfl
@[simp] theorem standard_outdivMaxExp : Config.standard.outdivMaxExp = 6 := rfl
@[simp] theorem standard_nScale : Config.standard.nScale = 1000 := rfl
@[simp] theorem standard_pfdFracMaxHz : Config.standard.pfdFracMaxHz = 32000000 := rfl
@[simp] theorem standard_pfdIntMaxHz : Config.standard.pfdIntMaxHz = 90000000 := rfl
@[simp] theorem standard_bscLowScale : Config.standard.bscLowScale = 8 := rfl
@[simp] theorem standard_bscHighScale : Config.standard.bscHighScale = 2 := rfl
@[simp] theorem standard_bscDivCap : Config.standard.bscDivCap = 255 := rfl
@[simp] theorem standard_bscMaxHz : Config.standard.bscMaxHz = 500000 := rfl
@[simp] theorem standard_bscVariantMaxHz : Config.standard.bscVariantMaxHz = 125000000 := rfl
@[simp] theorem standard_intMax : Config.standard.intMax = 65535 := rfl
@[simp] theorem standard_fracMax : Config.standard.fracMax = 4095 := rfl
@[simp] theorem standard_modMax : Config.standard.modMax = 4095 := rfl
@[simp] theorem standard_outdivSelMax : Config.standard.outdivSelMax = 6 := rfl
@[simp] theorem standard_r5Reserved : Config.standard.r5Reserved = 3 := rfl
@[simp] theorem standard_abpTable : Config.standard.abpTable = [10, 6] := rfl
@[simp] theorem standard_cpTable : Config.standard.cpTable =
    [31, 63, 94, 125, 156, 188, 219, 250, 281, 313, 344, 375, 406, 438, 469, 500] := rfl
@[simp] theorem standard_pwrTable : Config.standard.pwrTable = [-4, -1, 2, 5] := rfl
@[simp] theorem standard_abpDefaultIndex : Config.standard.abpDefaultIndex = 0 := rfl
@[simp] theorem standard_cpTableLen : Config.standard.cpTableLen = 16 := rfl
@[simp] theorem standard_pwrTableLen : Config.standard.pwrTableLen = 4 := rfl
@[simp] theorem standard_wHz : Config.standard.wHz = 64 := rfl
@[simp] theorem standard_wInt : Config.standard.wInt = 70 := rfl
@[simp] theorem standard_wFrac : Config.standard.wFrac = 64 := rfl
@[simp] theorem standard_wMod : Config.standard.wMod = 64 := rfl
@[simp] theorem standard_bscRounding : Config.standard.bscRounding = .floorOfProduct := rfl

/-! The carriers of `Word.lean` are as wide as the stated widths. -/

theorem hz_width : Hz = BitVec Config.standard.wHz := rfl
theorem wide_width : Wide = BitVec Config.standard.wInt := rfl
theorem fracReg_width : FracReg = BitVec Config.standard.wFrac := rfl
theorem modReg_width : ModReg = BitVec Config.standard.wMod := rfl

end Sys2Proof
end

