-- ==== Sys2Proof/Laws/Decode.lean ====
section
/-! SUPPORT. Fields and encodings as numbers: what a field of a word is, and what number each encoder writes. With these
a statement about a word is a linear fact about its fields. -/

namespace Sys2Proof

theorem toNat_append_add {n m : Nat} (x : BitVec n) (y : BitVec m) :
    (x ++ y).toNat = x.toNat * 2 ^ m + y.toNat := by
  rw [BitVec.toNat_append, ← Nat.shiftLeft_add_eq_or_of_lt y.isLt, Nat.shiftLeft_eq]

theorem field_toNat (w : Word) (lo k : Nat) : (field w lo k).toNat = w.toNat / 2 ^ lo % 2 ^ k := by
  simp [field, BitVec.extractLsb'_toNat, Nat.shiftRight_eq_div_pow]

/-- A quotient by `2^lo` is the field of `k` bits there, under the quotient by `2^(lo+k)`. -/
theorem div_split (n lo k : Nat) : n / 2 ^ lo = n / 2 ^ (lo + k) * 2 ^ k + n / 2 ^ lo % 2 ^ k := by
  rw [Nat.pow_add, ← Nat.div_div_eq_div_mul, Nat.mul_comm]; exact (Nat.div_add_mod _ _).symm

theorem bit_isLt (x : Bit) : x.toNat < 2 := x.isLt

/-- Equality of a field with a constant, as a fact about numbers. -/
theorem field_eq_iff {w : Word} {lo k : Nat} {c : BitVec k} :
    field w lo k = c ↔ w.toNat / 2 ^ lo % 2 ^ k = c.toNat := by
  rw [← field_toNat]; exact BitVec.toNat_inj.symm

theorem encodeR0_toNat (int : BitVec 16) (frac : BitVec 12) :
    (encodeR0 int frac).toNat = int.toNat * 2 ^ 15 + frac.toNat * 2 ^ 3 := by
  show (0#1 ++ int ++ frac ++ 0b000#3).toNat = _
  simp only [toNat_append_add]; simp; omega

theorem encodeR1_toNat (nz p89 z : Bit) (mod : BitVec 12) :
    (encodeR1 nz p89 z mod).toNat =
      nz.toNat * 2 ^ 28 + p89.toNat * 2 ^ 27 + z.toNat * 2 ^ 15 + mod.toNat * 2 ^ 3 + 1 := by
  show (0#3 ++ nz ++ p89 ++ 0#11 ++ z ++ mod ++ 0b001#3).toNat = _
  simp only [toNat_append_add]; simp; omega

theorem encodeR2_toNat (nm : BitVec 2) (mx : BitVec 3) (rd rh : Bit) (rc : BitVec 10) (db : Bit) (cp : BitVec 4)
    (fn an pp pd ct cr : Bit) :
    (encodeR2 nm mx rd rh rc db cp fn an pp pd ct cr).toNat =
      nm.toNat * 2 ^ 29 + mx.toNat * 2 ^ 26 + rd.toNat * 2 ^ 25 + rh.toNat * 2 ^ 24 + rc.toNat * 2 ^ 14 +
        db.toNat * 2 ^ 13 + cp.toNat * 2 ^ 9 + fn.toNat * 2 ^ 8 + an.toNat * 2 ^ 7 + pp.toNat * 2 ^ 6 +
        pd.toNat * 2 ^ 5 + ct.toNat * 2 ^ 4 + cr.toNat * 2 ^ 3 + 2 := by
  show (0#1 ++ nm ++ mx ++ rd ++ rh ++ rc ++ db ++ cp ++ fn ++ an ++ pp ++ pd ++ ct ++ cr ++ 0b010#3).toNat = _
  simp only [toNat_append_add]; simp; omega

theorem encodeR3Legacy_toNat (csr : Bit) (cm : BitVec 2) (cv : BitVec 12) :
    (encodeR3Legacy csr cm cv).toNat = csr.toNat * 2 ^ 18 + cm.toNat * 2 ^ 15 + cv.toNat * 2 ^ 3 + 3 := by
  show (0#13 ++ csr ++ 0#1 ++ cm ++ cv ++ 0b011#3).toNat = _
  simp only [toNat_append_add]; simp; omega

theorem encodeR3Full_toNat (bm ai cc csr : Bit) (cm : BitVec 2) (cv : BitVec 12) :
    (encodeR3Full bm ai cc csr cm cv).toNat =
      bm.toNat * 2 ^ 23 + ai.toNat * 2 ^ 22 + cc.toNat * 2 ^ 21 + csr.toNat * 2 ^ 18 + cm.toNat * 2 ^ 15 +
        cv.toNat * 2 ^ 3 + 3 := by
  show (0#8 ++ bm ++ ai ++ cc ++ 0#2 ++ csr ++ 0#1 ++ cm ++ cv ++ 0b011#3).toNat = _
  simp only [toNat_append_add]; simp; omega

theorem encodeR4_toNat (fb : Bit) (os : BitVec 3) (bd : BitVec 8) (vp ml aus ae : Bit) (ap : BitVec 2) (oe : Bit)
    (op : BitVec 2) :
    (encodeR4 fb os bd vp ml aus ae ap oe op).toNat =
      fb.toNat * 2 ^ 23 + os.toNat * 2 ^ 20 + bd.toNat * 2 ^ 12 + vp.toNat * 2 ^ 11 + ml.toNat * 2 ^ 10 +
        aus.toNat * 2 ^ 9 + ae.toNat * 2 ^ 8 + ap.toNat * 2 ^ 6 + oe.toNat * 2 ^ 5 + op.toNat * 2 ^ 3 + 4 := by
  show (0#8 ++ fb ++ os ++ bd ++ vp ++ ml ++ aus ++ ae ++ ap ++ oe ++ op ++ 0b100#3).toNat = _
  simp only [toNat_append_add]; simp; omega

theorem encodeR5_toNat (lp : BitVec 2) : (encodeR5 lp).toNat = lp.toNat * 2 ^ 22 + 3 * 2 ^ 19 + 5 := by
  revert lp; decide

/-- The fixed bits of each row, as facts about the word's number. -/
theorem fixed_iff (w : Word) :
    (fixedR0 w = true ↔ w.toNat / 2 ^ 31 = 0 ∧ w.toNat % 8 = 0) ∧
    (fixedR1 w = true ↔ w.toNat / 2 ^ 29 = 0 ∧ w.toNat / 2 ^ 16 % 2 ^ 11 = 0 ∧ w.toNat % 8 = 1) ∧
    (fixedR2 w = true ↔ w.toNat / 2 ^ 31 = 0 ∧ w.toNat % 8 = 2) ∧
    (fixedR3Legacy w = true ↔ w.toNat / 2 ^ 19 = 0 ∧ w.toNat / 2 ^ 17 % 2 = 0 ∧ w.toNat % 8 = 3) ∧
    (fixedR3Full w = true ↔
      w.toNat / 2 ^ 24 = 0 ∧ w.toNat / 2 ^ 19 % 4 = 0 ∧ w.toNat / 2 ^ 17 % 2 = 0 ∧ w.toNat % 8 = 3) ∧
    (fixedR4 w = true ↔ w.toNat / 2 ^ 24 = 0 ∧ w.toNat % 8 = 4) ∧
    (fixedR5 w = true ↔ w.toNat / 2 ^ 24 = 0 ∧ w.toNat % 2 ^ 22 = 0x180005) := by
  have := w.isLt
  simp only [fixedR0, fixedR1, fixedR2, fixedR3Legacy, fixedR3Full, fixedR4, fixedR5, Bool.and_eq_true, beq_iff_eq,
    field_eq_iff]
  simp
  refine ⟨?_, ?_, ?_, ?_, ?_, ?_, ?_⟩ <;> omega

/-- A word of format `R3_LEGACY` also has the fixed bits of `R3_FULL` (`30_encoding.md` R96). -/
theorem fixedR3Full_of_fixedR3Legacy {w : Word} (h : fixedR3Legacy w = true) : fixedR3Full w = true := by
  have hf := fixed_iff w
  have h3 := hf.2.2.2.1.mp h
  refine hf.2.2.2.2.1.mpr ?_
  clear hf
  omega

/-- A word decodes exactly when it has the fixed bits of some row. -/
theorem decodeWord_ok_iff {v : Bit} {w : Word} :
    (∃ i, decodeWord v w = .ok i) ↔
      fixedR0 w = true ∨ fixedR1 w = true ∨ fixedR2 w = true ∨ fixedR3Full w = true ∨ fixedR4 w = true ∨
        fixedR5 w = true := by
  constructor
  · rintro ⟨i, h⟩
    unfold decodeWord at h
    split at h; · simp [*]
    split at h; · simp [*]
    split at h; · simp [*]
    split at h
    · next g => simp [fixedR3Full_of_fixedR3Legacy (Bool.and_eq_true_iff.mp g).2]
    split at h; · simp [*]
    split at h; · simp [*]
    split at h; · simp [*]
    split at h <;> cases h
  · intro h
    unfold decodeWord
    split; · exact ⟨_, rfl⟩
    split; · exact ⟨_, rfl⟩
    split; · exact ⟨_, rfl⟩
    split; · exact ⟨_, rfl⟩
    split; · exact ⟨_, rfl⟩
    split; · exact ⟨_, rfl⟩
    split; · exact ⟨_, rfl⟩
    simp_all

/-- The four bytes of a word, put together again, are the word. -/
theorem wordOfBytes_wordBytes (w : Word) :
    wordOfBytes (field w 24 8) (field w 16 8) (field w 8 8) (field w 0 8) = w := by
  apply BitVec.eq_of_toNat_eq
  show (field w 24 8 ++ field w 16 8 ++ field w 8 8 ++ field w 0 8).toNat = _
  simp only [toNat_append_add, field_toNat]
  omega

/-- The bytes of a word decode as that word. -/
theorem decode_wordBytes (v : Bit) (w : Word) : decode v (wordBytes w) = decodeWord v w := by
  show decodeWord v (wordOfBytes _ _ _ _) = _
  rw [wordOfBytes_wordBytes]

/-- Two words with the same bytes are the same word. -/
theorem wordBytes_inj {a c : Word} (h : wordBytes a = wordBytes c) : a = c := by
  rw [← wordOfBytes_wordBytes a, ← wordOfBytes_wordBytes c]
  simp only [wordBytes, List.cons.injEq, and_true] at h
  rw [h.1, h.2.1, h.2.2.1, h.2.2.2]

end Sys2Proof
end

