-- ==== Sys2Proof/Laws/State.lean ====
section
/-! SUPPORT. One lemma per field per state update, each true by `rfl`: no later proof unfolds an update. -/

namespace Sys2Proof.Machine

/-! ### `writeSettings v s` -/

@[simp] theorem writeSettings_rst (v : Settings) (s : State) : (writeSettings v s).rst = s.rst := rfl
@[simp] theorem writeSettings_cmd (v : Settings) (s : State) : (writeSettings v s).cmd = s.cmd := rfl
@[simp] theorem writeSettings_rdIdx (v : Settings) (s : State) : (writeSettings v s).rdIdx = s.rdIdx := rfl
@[simp] theorem writeSettings_freqHz (v : Settings) (s : State) : (writeSettings v s).freqHz = s.freqHz := rfl
@[simp] theorem writeSettings_opt (v : Settings) (s : State) : (writeSettings v s).opt = s.opt := rfl
@[simp] theorem writeSettings_setIn (v : Settings) (s : State) : (writeSettings v s).setIn = s.setIn := rfl
@[simp] theorem writeSettings_settings (v : Settings) (s : State) : (writeSettings v s).settings = v := rfl
@[simp] theorem writeSettings_setValid (v : Settings) (s : State) : (writeSettings v s).setValid = true := rfl
@[simp] theorem writeSettings_words (v : Settings) (s : State) : (writeSettings v s).words = s.words := rfl
@[simp] theorem writeSettings_regValid (v : Settings) (s : State) : (writeSettings v s).regValid = false := rfl
@[simp] theorem writeSettings_status (v : Settings) (s : State) : (writeSettings v s).status = s.status := rfl
@[simp] theorem writeSettings_act (v : Settings) (s : State) : (writeSettings v s).act = s.act := rfl
@[simp] theorem writeSettings_hostWord (v : Settings) (s : State) : (writeSettings v s).hostWord = s.hostWord := rfl
@[simp] theorem writeSettings_freeCount (v : Settings) (s : State) :
    (writeSettings v s).freeCount = s.freeCount := rfl

/-! ### `writeWords ws s` -/

@[simp] theorem writeWords_rst (ws : Words) (s : State) : (writeWords ws s).rst = s.rst := rfl
@[simp] theorem writeWords_cmd (ws : Words) (s : State) : (writeWords ws s).cmd = s.cmd := rfl
@[simp] theorem writeWords_rdIdx (ws : Words) (s : State) : (writeWords ws s).rdIdx = s.rdIdx := rfl
@[simp] theorem writeWords_freqHz (ws : Words) (s : State) : (writeWords ws s).freqHz = s.freqHz := rfl
@[simp] theorem writeWords_opt (ws : Words) (s : State) : (writeWords ws s).opt = s.opt := rfl
@[simp] theorem writeWords_setIn (ws : Words) (s : State) : (writeWords ws s).setIn = s.setIn := rfl
@[simp] theorem writeWords_settings (ws : Words) (s : State) : (writeWords ws s).settings = s.settings := rfl
@[simp] theorem writeWords_setValid (ws : Words) (s : State) : (writeWords ws s).setValid = s.setValid := rfl
@[simp] theorem writeWords_words (ws : Words) (s : State) : (writeWords ws s).words = ws := rfl
@[simp] theorem writeWords_regValid (ws : Words) (s : State) : (writeWords ws s).regValid = true := rfl
@[simp] theorem writeWords_status (ws : Words) (s : State) : (writeWords ws s).status = s.status := rfl
@[simp] theorem writeWords_act (ws : Words) (s : State) : (writeWords ws s).act = s.act := rfl
@[simp] theorem writeWords_hostWord (ws : Words) (s : State) : (writeWords ws s).hostWord = s.hostWord := rfl
@[simp] theorem writeWords_freeCount (ws : Words) (s : State) : (writeWords ws s).freeCount = s.freeCount := rfl

/-! ### `writeOk s` -/

@[simp] theorem writeOk_rst (s : State) : (writeOk s).rst = s.rst := rfl
@[simp] theorem writeOk_cmd (s : State) : (writeOk s).cmd = s.cmd := rfl
@[simp] theorem writeOk_rdIdx (s : State) : (writeOk s).rdIdx = s.rdIdx := rfl
@[simp] theorem writeOk_freqHz (s : State) : (writeOk s).freqHz = s.freqHz := rfl
@[simp] theorem writeOk_opt (s : State) : (writeOk s).opt = s.opt := rfl
@[simp] theorem writeOk_setIn (s : State) : (writeOk s).setIn = s.setIn := rfl
@[simp] theorem writeOk_settings (s : State) : (writeOk s).settings = s.settings := rfl
@[simp] theorem writeOk_setValid (s : State) : (writeOk s).setValid = s.setValid := rfl
@[simp] theorem writeOk_words (s : State) : (writeOk s).words = s.words := rfl
@[simp] theorem writeOk_regValid (s : State) : (writeOk s).regValid = s.regValid := rfl
@[simp] theorem writeOk_status (s : State) : (writeOk s).status = Status.ok := rfl
@[simp] theorem writeOk_act (s : State) : (writeOk s).act = s.act := rfl
@[simp] theorem writeOk_hostWord (s : State) : (writeOk s).hostWord = s.hostWord := rfl
@[simp] theorem writeOk_freeCount (s : State) : (writeOk s).freeCount = s.freeCount := rfl

/-! ### `dropSettings s` -/

@[simp] theorem dropSettings_rst (s : State) : (dropSettings s).rst = s.rst := rfl
@[simp] theorem dropSettings_cmd (s : State) : (dropSettings s).cmd = s.cmd := rfl
@[simp] theorem dropSettings_rdIdx (s : State) : (dropSettings s).rdIdx = s.rdIdx := rfl
@[simp] theorem dropSettings_freqHz (s : State) : (dropSettings s).freqHz = s.freqHz := rfl
@[simp] theorem dropSettings_opt (s : State) : (dropSettings s).opt = s.opt := rfl
@[simp] theorem dropSettings_setIn (s : State) : (dropSettings s).setIn = s.setIn := rfl
@[simp] theorem dropSettings_settings (s : State) : (dropSettings s).settings =
    ⟨Config.freeInt s.freeCount, Config.freeFrac s.freeCount, Config.freeMod s.freeCount,
      Config.freeOutdiv s.freeCount, Config.freeBscdiv s.freeCount⟩ := rfl
@[simp] theorem dropSettings_setValid (s : State) : (dropSettings s).setValid = false := rfl
@[simp] theorem dropSettings_words (s : State) : (dropSettings s).words = s.words := rfl
@[simp] theorem dropSettings_regValid (s : State) : (dropSettings s).regValid = s.regValid := rfl
@[simp] theorem dropSettings_status (s : State) : (dropSettings s).status = s.status := rfl
@[simp] theorem dropSettings_act (s : State) : (dropSettings s).act = s.act := rfl
@[simp] theorem dropSettings_hostWord (s : State) : (dropSettings s).hostWord = s.hostWord := rfl
@[simp] theorem dropSettings_freeCount (s : State) : (dropSettings s).freeCount = s.freeCount + 1 := rfl

/-! ### `dropWords s` -/

@[simp] theorem dropWords_rst (s : State) : (dropWords s).rst = s.rst := rfl
@[simp] theorem dropWords_cmd (s : State) : (dropWords s).cmd = s.cmd := rfl
@[simp] theorem dropWords_rdIdx (s : State) : (dropWords s).rdIdx = s.rdIdx := rfl
@[simp] theorem dropWords_freqHz (s : State) : (dropWords s).freqHz = s.freqHz := rfl
@[simp] theorem dropWords_opt (s : State) : (dropWords s).opt = s.opt := rfl
@[simp] theorem dropWords_setIn (s : State) : (dropWords s).setIn = s.setIn := rfl
@[simp] theorem dropWords_settings (s : State) : (dropWords s).settings = s.settings := rfl
@[simp] theorem dropWords_setValid (s : State) : (dropWords s).setValid = s.setValid := rfl
@[simp] theorem dropWords_words (s : State) : (dropWords s).words =
    ⟨Config.freeWord s.freeCount 0, Config.freeWord s.freeCount 1, Config.freeWord s.freeCount 2,
      Config.freeWord s.freeCount 3, Config.freeWord s.freeCount 4, Config.freeWord s.freeCount 5⟩ := rfl
@[simp] theorem dropWords_regValid (s : State) : (dropWords s).regValid = false := rfl
@[simp] theorem dropWords_status (s : State) : (dropWords s).status = s.status := rfl
@[simp] theorem dropWords_act (s : State) : (dropWords s).act = s.act := rfl
@[simp] theorem dropWords_hostWord (s : State) : (dropWords s).hostWord = s.hostWord := rfl
@[simp] theorem dropWords_freeCount (s : State) : (dropWords s).freeCount = s.freeCount + 1 := rfl

/-! ### `raise .solve e s` -/

@[simp] theorem raise_solve_rst (e : BlockError) (s : State) : (raise .solve e s).rst = s.rst := rfl
@[simp] theorem raise_solve_cmd (e : BlockError) (s : State) : (raise .solve e s).cmd = s.cmd := rfl
@[simp] theorem raise_solve_rdIdx (e : BlockError) (s : State) : (raise .solve e s).rdIdx = s.rdIdx := rfl
@[simp] theorem raise_solve_freqHz (e : BlockError) (s : State) : (raise .solve e s).freqHz = s.freqHz := rfl
@[simp] theorem raise_solve_opt (e : BlockError) (s : State) : (raise .solve e s).opt = s.opt := rfl
@[simp] theorem raise_solve_setIn (e : BlockError) (s : State) : (raise .solve e s).setIn = s.setIn := rfl
@[simp] theorem raise_solve_settings (e : BlockError) (s : State) : (raise .solve e s).settings =
    ⟨Config.freeInt s.freeCount, Config.freeFrac s.freeCount, Config.freeMod s.freeCount,
      Config.freeOutdiv s.freeCount, Config.freeBscdiv s.freeCount⟩ := rfl
@[simp] theorem raise_solve_setValid (e : BlockError) (s : State) : (raise .solve e s).setValid = false := rfl
@[simp] theorem raise_solve_words (e : BlockError) (s : State) : (raise .solve e s).words = s.words := rfl
@[simp] theorem raise_solve_regValid (e : BlockError) (s : State) : (raise .solve e s).regValid = false := rfl
@[simp] theorem raise_solve_status (e : BlockError) (s : State) : (raise .solve e s).status = errorStatus e := rfl
@[simp] theorem raise_solve_act (e : BlockError) (s : State) : (raise .solve e s).act = s.act := rfl
@[simp] theorem raise_solve_hostWord (e : BlockError) (s : State) : (raise .solve e s).hostWord = s.hostWord := rfl
@[simp] theorem raise_solve_freeCount (e : BlockError) (s : State) :
    (raise .solve e s).freeCount = s.freeCount + 1 := rfl

/-! ### `raise .pack e s` -/

@[simp] theorem raise_pack_rst (e : BlockError) (s : State) : (raise .pack e s).rst = s.rst := rfl
@[simp] theorem raise_pack_cmd (e : BlockError) (s : State) : (raise .pack e s).cmd = s.cmd := rfl
@[simp] theorem raise_pack_rdIdx (e : BlockError) (s : State) : (raise .pack e s).rdIdx = s.rdIdx := rfl
@[simp] theorem raise_pack_freqHz (e : BlockError) (s : State) : (raise .pack e s).freqHz = s.freqHz := rfl
@[simp] theorem raise_pack_opt (e : BlockError) (s : State) : (raise .pack e s).opt = s.opt := rfl
@[simp] theorem raise_pack_setIn (e : BlockError) (s : State) : (raise .pack e s).setIn = s.setIn := rfl
@[simp] theorem raise_pack_settings (e : BlockError) (s : State) : (raise .pack e s).settings = s.settings := rfl
@[simp] theorem raise_pack_setValid (e : BlockError) (s : State) : (raise .pack e s).setValid = s.setValid := rfl
@[simp] theorem raise_pack_words (e : BlockError) (s : State) : (raise .pack e s).words =
    ⟨Config.freeWord s.freeCount 0, Config.freeWord s.freeCount 1, Config.freeWord s.freeCount 2,
      Config.freeWord s.freeCount 3, Config.freeWord s.freeCount 4, Config.freeWord s.freeCount 5⟩ := rfl
@[simp] theorem raise_pack_regValid (e : BlockError) (s : State) : (raise .pack e s).regValid = false := rfl
@[simp] theorem raise_pack_status (e : BlockError) (s : State) : (raise .pack e s).status = errorStatus e := rfl
@[simp] theorem raise_pack_act (e : BlockError) (s : State) : (raise .pack e s).act = s.act := rfl
@[simp] theorem raise_pack_hostWord (e : BlockError) (s : State) : (raise .pack e s).hostWord = s.hostWord := rfl
@[simp] theorem raise_pack_freeCount (e : BlockError) (s : State) :
    (raise .pack e s).freeCount = s.freeCount + 1 := rfl

/-! ### `resetBlock s` -/

@[simp] theorem resetBlock_rst (s : State) : (resetBlock s).rst = s.rst := rfl
@[simp] theorem resetBlock_cmd (s : State) : (resetBlock s).cmd = s.cmd := rfl
@[simp] theorem resetBlock_rdIdx (s : State) : (resetBlock s).rdIdx = s.rdIdx := rfl
@[simp] theorem resetBlock_freqHz (s : State) : (resetBlock s).freqHz = s.freqHz := rfl
@[simp] theorem resetBlock_opt (s : State) : (resetBlock s).opt = s.opt := rfl
@[simp] theorem resetBlock_setIn (s : State) : (resetBlock s).setIn = s.setIn := rfl
@[simp] theorem resetBlock_settings (s : State) : (resetBlock s).settings = Settings.zero := rfl
@[simp] theorem resetBlock_setValid (s : State) : (resetBlock s).setValid = false := rfl
@[simp] theorem resetBlock_words (s : State) : (resetBlock s).words = Words.zero := rfl
@[simp] theorem resetBlock_regValid (s : State) : (resetBlock s).regValid = false := rfl
@[simp] theorem resetBlock_status (s : State) : (resetBlock s).status = Status.ok := rfl
@[simp] theorem resetBlock_act (s : State) : (resetBlock s).act = s.act := rfl
@[simp] theorem resetBlock_hostWord (s : State) : (resetBlock s).hostWord = s.hostWord := rfl
@[simp] theorem resetBlock_freeCount (s : State) : (resetBlock s).freeCount = s.freeCount := rfl

end Sys2Proof.Machine
end

