-- ==== Sys2Proof/Laws/Ops.lean ====
section
/-! SUPPORT. One lemma per shared operation that says everything it can do, and the inversion lemmas of `exec` and
`step`: later proofs cite these and unfold nothing. -/

namespace Sys2Proof.Machine

/-- The first failing check of a list is one of its entries, and its condition holds. -/
theorem firstFailing_some {l : List (Bool × BlockError)} {e : BlockError} (h : firstFailing l = some e) :
    (true, e) ∈ l := by
  induction l with
  | nil => simp [firstFailing] at h
  | cons p l ih =>
    obtain ⟨c, e'⟩ := p
    cases c with
    | false => exact List.mem_cons_of_mem _ (ih (by simpa [firstFailing] using h))
    | true => simp [firstFailing] at h; simp [h]

/-- No check fails exactly when every condition is false. -/
theorem firstFailing_none {l : List (Bool × BlockError)} : firstFailing l = none ↔ ∀ p ∈ l, p.1 = false := by
  induction l with
  | nil => simp [firstFailing]
  | cons p l ih => obtain ⟨c, e⟩ := p; cases c <;> simp [firstFailing, ih]

/-- A read succeeds exactly at a location while the words hold a value. -/
theorem memRead_ok {s : State} {i : BitVec 3} {w : Word} :
    memRead s i = .ok w ↔ s.regValid = true ∧ wordAt s.words i = some w := by
  unfold memRead
  cases wordAt s.words i <;> cases s.regValid <;> simp

/-- A read fails in two ways only. -/
theorem memRead_error {s : State} {i : BitVec 3} {f : Fault} :
    memRead s i = .error f ↔
      (f = .readNoLocation ∧ wordAt s.words i = none) ∨
        (f = .readNoValue ∧ s.regValid = false ∧ wordAt s.words i ≠ none) := by
  unfold memRead
  cases wordAt s.words i <;> cases s.regValid <;> simp [eq_comm]

/-- The host receives a word exactly when its read port shows it, and then only the host's side changes. -/
theorem receiveWord_next {w : Word} {s t : State} :
    receiveWord w s = .next t ↔ wordPort s = .ok w ∧ t = { s with hostWord := w } := by
  unfold receiveWord
  split <;> simp_all [eq_comm]

/-- The meaning of the row that a word encodes is the host's read of that word. -/
theorem exec_of_encode {i : Instr} {w : Word} {s : State} (h : encode i = wordBytes w) : exec i s = receiveWord w s := by
  cases i with
  | nop => simp [encode, wordBytes] at h
  | solve => simp [encode, wordBytes] at h
  | pack => simp [encode, wordBytes] at h
  | ldset => simp [encode, wordBytes] at h
  | _ => cases wordBytes_inj h; rfl

/-- A failed `SOLVE` writes what R224 lists. -/
theorem raise_solve_failed (e : BlockError) (s : State) : SolveFailed s (raise .solve e s) := rfl

/-- A failed `PACK` writes what R224 lists. -/
theorem raise_pack_failed (e : BlockError) (s : State) : PackFailed s (raise .pack e s) := rfl

/-- A successful `SOLVE` writes what R147 lists. -/
theorem solve_done (v : Settings) (s : State) : SolveDone s (writeOk (writeSettings v s)) := rfl

/-- A successful `PACK` writes what R205 lists. -/
theorem pack_done (ws : Words) (s : State) : PackDone s (writeOk (writeWords ws s)) := rfl

/-- Every Settings value fits the stated widths. -/
theorem settings_fits_standard (v : Settings) : v.Fits Config.standard := ⟨v.int.isLt, v.frac.isLt, v.mod.isLt⟩

/-- Every state fits the stated widths: they are those of the carriers. -/
theorem fits_standard (s : State) : s.Fits Config.standard :=
  ⟨s.freqHz.isLt, s.opt.refHz.isLt, s.opt.spacingHz.isLt, settings_fits_standard _, fun _ => settings_fits_standard _,
    s.status.value.isLt⟩

/-- Everything `SOLVE` can do under a configuration. -/
theorem solveWith_cases (c : Config) (s : State) :
    (∃ v, solve c s.freqHz s.opt = .ok v ∧ solveWith c s = .next (writeOk (writeSettings v s))) ∨
      ∃ e, solve c s.freqHz s.opt = .error e ∧ solveWith c s = .next (raise .solve e s) := by
  unfold solveWith
  cases h : solve c s.freqHz s.opt with
  | ok v => exact .inl ⟨v, rfl, rfl⟩
  | error e => exact .inr ⟨e, rfl, rfl⟩

/-- Everything `PACK` can do under a configuration. -/
theorem packWith_cases (c : Config) (s : State) :
    (∃ ws, pack c s.opt s.setValid s.settings = .ok ws ∧ packWith c s = .next (writeOk (writeWords ws s))) ∨
      ∃ e, pack c s.opt s.setValid s.settings = .error e ∧ packWith c s = .next (raise .pack e s) := by
  unfold packWith
  cases h : pack c s.opt s.setValid s.settings with
  | ok ws => exact .inl ⟨ws, rfl, rfl⟩
  | error e => exact .inr ⟨e, rfl, rfl⟩

/-- Everything `SOLVE` can do. -/
theorem execSolve_cases (s : State) :
    (∃ v, solve Config.standard s.freqHz s.opt = .ok v ∧ execSolve s = .next (writeOk (writeSettings v s))) ∨
      ∃ e, solve Config.standard s.freqHz s.opt = .error e ∧ execSolve s = .next (raise .solve e s) :=
  solveWith_cases Config.standard s

/-- Everything `PACK` can do. -/
theorem execPack_cases (s : State) :
    (∃ ws, pack Config.standard s.opt s.setValid s.settings = .ok ws ∧
        execPack s = .next (writeOk (writeWords ws s))) ∨
      ∃ e, pack Config.standard s.opt s.setValid s.settings = .error e ∧ execPack s = .next (raise .pack e s) :=
  packWith_cases Config.standard s

/-- Everything that an instruction which answers a next state has done under a configuration. -/
theorem execWith_cases {c : Config} {i : Instr} {s t : State} (h : execWith c i s = .next t) :
    (i = .nop ∧ t = s) ∨
    (i = .ldset ∧ t = writeSettings s.setIn s) ∨
    (i = .solve ∧ ∃ v, solve c s.freqHz s.opt = .ok v ∧ t = writeOk (writeSettings v s)) ∨
    (i = .solve ∧ ∃ e, solve c s.freqHz s.opt = .error e ∧ t = raise .solve e s) ∨
    (i = .pack ∧ ∃ ws, pack c s.opt s.setValid s.settings = .ok ws ∧ t = writeOk (writeWords ws s)) ∨
    (i = .pack ∧ ∃ e, pack c s.opt s.setValid s.settings = .error e ∧ t = raise .pack e s) ∨
    (∃ w, wordPort s = .ok w ∧ encode i = wordBytes w ∧ t = { s with hostWord := w }) := by
  cases i with
  | nop => left; exact ⟨rfl, by simpa [execWith, execNop] using h.symm⟩
  | ldset => right; left; exact ⟨rfl, by simpa [execWith, execLdset] using h.symm⟩
  | solve =>
    obtain ⟨v, hv, he⟩ | ⟨e, hv, he⟩ := solveWith_cases c s
    · right; right; left; exact ⟨rfl, v, hv, by rw [execWith, he] at h; simpa using h.symm⟩
    · right; right; right; left; exact ⟨rfl, e, hv, by rw [execWith, he] at h; simpa using h.symm⟩
  | pack =>
    obtain ⟨v, hv, he⟩ | ⟨e, hv, he⟩ := packWith_cases c s
    · right; right; right; right; left; exact ⟨rfl, v, hv, by rw [execWith, he] at h; simpa using h.symm⟩
    · right; right; right; right; right; left; exact ⟨rfl, e, hv, by rw [execWith, he] at h; simpa using h.symm⟩
  | _ =>
    obtain ⟨hw, ht⟩ := receiveWord_next.mp h
    exact .inr (.inr (.inr (.inr (.inr (.inr ⟨_, hw, rfl, ht⟩)))))

/-- `exec` is the machine of R6 with the configuration at its default. -/
theorem exec_eq (i : Instr) (s : State) : exec i s = execWith Config.standard i s := by cases i <;> rfl

/-- `step` is the step of R6 with the configuration at its default. -/
theorem step_eq (s : State) : step s = stepWith Config.standard s := by
  unfold step stepWith
  rw [show exec = execWith Config.standard from funext fun i => funext (exec_eq i)]

/-- Everything that an instruction which answers a next state has done. -/
theorem exec_cases {i : Instr} {s t : State} (h : exec i s = .next t) :
    (i = .nop ∧ t = s) ∨
    (i = .ldset ∧ t = writeSettings s.setIn s) ∨
    (i = .solve ∧ ∃ v, solve Config.standard s.freqHz s.opt = .ok v ∧ t = writeOk (writeSettings v s)) ∨
    (i = .solve ∧ ∃ e, solve Config.standard s.freqHz s.opt = .error e ∧ t = raise .solve e s) ∨
    (i = .pack ∧ ∃ ws, pack Config.standard s.opt s.setValid s.settings = .ok ws ∧ t = writeOk (writeWords ws s)) ∨
    (i = .pack ∧ ∃ e, pack Config.standard s.opt s.setValid s.settings = .error e ∧ t = raise .pack e s) ∨
    (∃ w, wordPort s = .ok w ∧ encode i = wordBytes w ∧ t = { s with hostWord := w }) :=
  execWith_cases (exec_eq i s ▸ h)

/-- Everything that a step which answers a next state has done, whatever runs the instructions. -/
theorem runStep_cases {run : Instr → State → Host.Outcome State Fault Refusal} {s t : State}
    (h : runStep run s = .next t) :
    (s.rst = 1#1 ∧ t = resetBlock s) ∨
      (s.rst ≠ 1#1 ∧ ∃ bs i, fetch s = .ok bs ∧ decode s.opt.variant bs = .ok i ∧ run i s = .next t) := by
  unfold runStep at h
  split at h
  · next hr => exact .inl ⟨hr, by simpa using h.symm⟩
  · next hr =>
    split at h
    · cases h
    · next bs hb =>
      split at h
      · cases h
      · next i hi => exact .inr ⟨hr, bs, i, hb, hi, h⟩

/-- Everything that a step which answers a next state has done. -/
theorem step_cases {s t : State} (h : step s = .next t) :
    (s.rst = 1#1 ∧ t = resetBlock s) ∨
      (s.rst ≠ 1#1 ∧ ∃ bs i, fetch s = .ok bs ∧ decode s.opt.variant bs = .ok i ∧ exec i s = .next t) :=
  runStep_cases h

end Sys2Proof.Machine
end

