-- ==== Sys2Proof/Laws/Packer.lean ====
section
/-! SUPPORT. The lookups, and what a pack that answers words has passed. -/

namespace Sys2Proof.Machine

/-- A hit is the index of an equal entry, and no earlier entry is equal. -/
theorem lookup_some {α : Type} [DecidableEq α] {T : List α} {v : α} {i : Nat} :
    lookup T v = some i ↔ T[i]? = some v ∧ ∀ j < i, T[j]? ≠ some v := by
  induction T generalizing i with
  | nil => simp [lookup]
  | cons t ts ih =>
    unfold lookup
    split
    · next h =>
      subst h
      cases i with
      | zero => simp
      | succ i => simp only [Option.some.injEq, false_iff, not_and, reduceCtorEq, Nat.right_eq_add]
                  intro _ hj; exact absurd (hj 0 (by omega)) (by simp)
    · next h =>
      cases i with
      | zero => simp [h]
      | succ i =>
        simp only [Option.map_eq_some_iff, Nat.add_right_cancel_iff, exists_eq_right, ih, List.getElem?_cons_succ]
        refine and_congr_right fun _ => ⟨fun hj j hlt => ?_, fun hj j hlt => ?_⟩
        · cases j with
          | zero => simpa using h
          | succ j => simpa using hj j (by omega)
        · simpa using hj (j + 1) (by omega)

/-- A miss is a value equal to no entry. -/
theorem lookup_none {α : Type} [DecidableEq α] {T : List α} {v : α} : lookup T v = none ↔ v ∉ T := by
  induction T with
  | nil => simp [lookup]
  | cons t ts ih => unfold lookup; split <;> simp_all [eq_comm]

/-- A pack succeeds exactly when none of its nine checks fails, and then it answers the composed words. -/
theorem pack_ok {c : Config} {o : Options} {valid : Bool} {v : Settings} {ws : Words} :
    pack c o valid v = .ok ws ↔
      (∀ p ∈ packChecks c o valid v, p.1 = false) ∧
        ws = compose c o v (hit (lutCp c o.cpCurrent)) (hit (lutAbp c o.abpWidth)) (hit (lutPwr c o.outPwr))
          (hit (lutPwr c o.auxPwr)) (hit (outDivSel c v.outdiv)) := by
  unfold pack
  cases h : firstFailing (packChecks c o valid v) with
  | none => exact ⟨fun hv => ⟨firstFailing_none.mp h, (Except.ok.inj hv).symm⟩, fun hv => congrArg _ hv.2.symm⟩
  | some e =>
    simp only [reduceCtorEq, false_iff, not_and]
    intro hn
    exact absurd (firstFailing_none.mpr hn) (by simp [h])

/-- A pack that fails reports the first failing check. -/
theorem pack_error {c : Config} {o : Options} {valid : Bool} {v : Settings} {e : BlockError} :
    pack c o valid v = .error e ↔ firstFailing (packChecks c o valid v) = some e := by
  unfold pack
  cases firstFailing (packChecks c o valid v) <;> simp

/-- Two fields that do not overlap: `|` is `+` (`43_packer.md` R196). -/
theorem shiftLeft_or_add (a n c : Nat) (h : c < 2 ^ n) : a <<< n ||| c = a * 2 ^ n + c := by
  rw [← Nat.shiftLeft_add_eq_or_of_lt h, Nat.shiftLeft_eq]

/-- Two adjacent or separate fields, shifted: `|` is `+` (R196). -/
theorem shiftLeft_or_shiftLeft {x y : Nat} (m n k : Nat) (hy : y < 2 ^ k) (hm : m = k + n := by rfl) :
    x <<< m ||| y <<< n = (x * 2 ^ k + y) <<< n := by
  rw [hm, Nat.shiftLeft_add, ← Nat.shiftLeft_or_distrib, shiftLeft_or_add _ _ _ hy]

/-- `b` is a bit. -/
theorem b_lt (c : Bool) : b c < 2 := by cases c <;> decide

/-- Word 0 as the sum of its fields (R196, R198). -/
theorem word0_eq {v : Settings} (hf : v.frac.toNat < 2 ^ 12) :
    word0 v = v.int.toNat * 2 ^ 15 + v.frac.toNat * 2 ^ 3 := by
  unfold word0
  rw [shiftLeft_or_shiftLeft 15 3 12 hf, Nat.or_zero, Nat.shiftLeft_eq]
  omega

/-- Word 1 as the sum of its fields (R196, R199). -/
theorem word1_eq {o : Options} {v : Settings} (hm : v.mod.toNat < 2 ^ 12) :
    word1 o v = b (o.phase != 0#12) * 2 ^ 28 + o.presc89.toNat * 2 ^ 27 + b (o.phase == 0#12) * 2 ^ 15 +
      v.mod.toNat * 2 ^ 3 + 1 := by
  have h1 := o.presc89.isLt
  have h2 := b_lt (o.phase == 0#12)
  unfold word1
  rw [shiftLeft_or_shiftLeft 28 27 1 h1, shiftLeft_or_shiftLeft 27 15 12 (by omega),
    shiftLeft_or_shiftLeft 15 3 12 hm, shiftLeft_or_add _ _ _ (by decide)]
  omega

/-- Word 2 as the sum of its fields (R196, R200). -/
theorem word2_eq {c : Config} {o : Options} {v : Settings} {cp abp : Nat} (hc : cp < 2 ^ 4) :
    word2 c o v cp abp = o.noiseMode.toNat * 2 ^ 29 + o.muxout.toNat * 2 ^ 26 + o.refDbl.toNat * 2 ^ 25 +
      o.refHalf.toNat * 2 ^ 24 + o.rCounter.toNat * 2 ^ 14 + o.dblBuf.toNat * 2 ^ 13 + cp * 2 ^ 9 +
      b (v.frac != 0#64) * 2 ^ 8 + b (abp != c.abpDefaultIndex) * 2 ^ 7 + o.pdPol.toNat * 2 ^ 6 +
      o.pwrDn.toNat * 2 ^ 5 + o.cpTri.toNat * 2 ^ 4 + o.cntRst.toNat * 2 ^ 3 + 2 := by
  have h1 := b_lt (v.frac != 0#64)
  have h2 := b_lt (abp != c.abpDefaultIndex)
  have h3 := o.muxout.isLt
  unfold word2
  rw [shiftLeft_or_shiftLeft 29 26 3 o.muxout.isLt, shiftLeft_or_shiftLeft 26 25 1 o.refDbl.isLt,
    shiftLeft_or_shiftLeft 25 24 1 o.refHalf.isLt, shiftLeft_or_shiftLeft 24 14 10 o.rCounter.isLt,
    shiftLeft_or_shiftLeft 14 13 1 o.dblBuf.isLt, shiftLeft_or_shiftLeft 13 9 4 hc,
    shiftLeft_or_shiftLeft 9 8 1 h1, shiftLeft_or_shiftLeft 8 7 1 h2,
    shiftLeft_or_shiftLeft 7 6 1 o.pdPol.isLt, shiftLeft_or_shiftLeft 6 5 1 o.pwrDn.isLt,
    shiftLeft_or_shiftLeft 5 4 1 o.cpTri.isLt, shiftLeft_or_shiftLeft 4 3 1 o.cntRst.isLt,
    shiftLeft_or_add _ _ _ (by decide)]
  omega

/-- Word 3 as the sum of its fields (R196, R201). -/
theorem word3_eq {o : Options} {abp : Nat} (ha : abp < 2) :
    word3 o abp = o.csr.toNat * 2 ^ 18 + o.clkdivMode.toNat * 2 ^ 15 + o.clkdivVal.toNat * 2 ^ 3 + 3 +
      (if o.variant = 1#1 then o.bscMode.toNat * 2 ^ 23 + abp * 2 ^ 22 + o.chgCancel.toNat * 2 ^ 21 else 0) := by
  have h1 := o.csr.isLt
  have h2 := o.clkdivMode.isLt
  have h3 := o.clkdivVal.isLt
  have h4 := o.chgCancel.isLt
  unfold word3 isFull
  rw [shiftLeft_or_shiftLeft 18 15 3 (by omega), shiftLeft_or_shiftLeft 15 3 12 h3,
    shiftLeft_or_add _ _ _ (by decide)]
  by_cases hv : o.variant = 1#1
  · simp only [hv, beq_self_eq_true, if_true]
    rw [shiftLeft_or_shiftLeft 23 22 1 ha, shiftLeft_or_shiftLeft 22 21 1 h4, Nat.or_comm,
      shiftLeft_or_add _ _ _ (by omega)]
    omega
  · simp only [beq_eq_false_iff_ne.mpr hv, Bool.false_eq_true, if_false, hv, Nat.or_zero]
    omega

/-- Word 4 as the sum of its fields (R196, R202). -/
theorem word4_eq {o : Options} {v : Settings} {sel ax pw : Nat} (hs : sel < 2 ^ 3) (ha : ax < 2 ^ 2)
    (hp : pw < 2 ^ 2) :
    word4 o v sel ax pw = o.fbSel.toNat * 2 ^ 23 + sel * 2 ^ 20 + v.bscdiv.toNat * 2 ^ 12 + o.vcoPd.toNat * 2 ^ 11 +
      o.mtld.toNat * 2 ^ 10 + o.auxSel.toNat * 2 ^ 9 + o.auxEn.toNat * 2 ^ 8 + ax * 2 ^ 6 + o.outEn.toNat * 2 ^ 5 +
      pw * 2 ^ 3 + 4 := by
  unfold word4
  rw [shiftLeft_or_shiftLeft 23 20 3 hs, shiftLeft_or_shiftLeft 20 12 8 v.bscdiv.isLt,
    shiftLeft_or_shiftLeft 12 11 1 o.vcoPd.isLt, shiftLeft_or_shiftLeft 11 10 1 o.mtld.isLt,
    shiftLeft_or_shiftLeft 10 9 1 o.auxSel.isLt, shiftLeft_or_shiftLeft 9 8 1 o.auxEn.isLt,
    shiftLeft_or_shiftLeft 8 6 2 ha, shiftLeft_or_shiftLeft 6 5 1 o.outEn.isLt,
    shiftLeft_or_shiftLeft 5 3 2 hp, shiftLeft_or_add _ _ _ (by decide)]
  omega

/-- Word 5 as the sum of its fields (R196, R203). -/
theorem word5_eq {c : Config} {o : Options} (hr : c.r5Reserved ≤ 3) :
    word5 c o = o.ldPin.toNat * 2 ^ 22 + c.r5Reserved * 2 ^ 19 + 5 := by
  unfold word5
  rw [shiftLeft_or_shiftLeft 22 19 3 (by omega), shiftLeft_or_add _ _ _ (by decide)]
  omega
/-- A hit is an entry: the index of a hit is below the length of the table. -/
theorem lookup_lt {α : Type} [DecidableEq α] {T : List α} {v : α} {i : Nat} (h : lookup T v = some i) :
    i < T.length :=
  (List.getElem?_eq_some_iff.mp (lookup_some.mp h).1).1

/-- A pack succeeds exactly when `SET` is valid and in range and the five lookups hit, and then it answers the words
composed from the five indices. -/
theorem pack_ok_iff {c : Config} {o : Options} {valid : Bool} {v : Settings} {ws : Words} :
    pack c o valid v = .ok ws ↔
      valid = true ∧ v.int.toNat ≤ c.intMax ∧ v.frac.toNat ≤ c.fracMax ∧ v.mod.toNat ≤ c.modMax ∧
        ∃ cp abp pw ax sel, lutCp c o.cpCurrent = some cp ∧ lutAbp c o.abpWidth = some abp ∧
          lutPwr c o.outPwr = some pw ∧ lutPwr c o.auxPwr = some ax ∧ outDivSel c v.outdiv = some sel ∧
          ws = compose c o v cp abp pw ax sel := by
  rw [pack_ok]
  simp only [packChecks, List.mem_cons, List.not_mem_nil, or_false, forall_eq_or_imp, forall_eq, Bool.not_eq_false',
    decide_eq_false_iff_not, Nat.not_lt, Option.isNone_eq_false_iff, Option.isSome_iff_exists]
  constructor
  · rintro ⟨⟨h1, h2, h3, h4, ⟨cp, h5⟩, ⟨abp, h6⟩, ⟨pw, h7⟩, ⟨ax, h8⟩, ⟨sel, h9⟩⟩, rfl⟩
    exact ⟨h1, h2, h3, h4, cp, abp, pw, ax, sel, h5, h6, h7, h8, h9, by simp [h5, h6, h7, h8, h9, hit]⟩
  · rintro ⟨h1, h2, h3, h4, cp, abp, pw, ax, sel, h5, h6, h7, h8, h9, rfl⟩
    exact ⟨⟨h1, h2, h3, h4, ⟨cp, h5⟩, ⟨abp, h6⟩, ⟨pw, h7⟩, ⟨ax, h8⟩, ⟨sel, h9⟩⟩, by simp [h5, h6, h7, h8, h9, hit]⟩

/-- A pack under the stated values succeeds exactly when `SET` is valid and in range and the five lookups hit, and then
it answers the words composed from the five indices. -/
theorem pack_standard_ok {o : Options} {valid : Bool} {v : Settings} {ws : Words} :
    pack Config.standard o valid v = .ok ws ↔
      valid = true ∧ v.int.toNat ≤ 65535 ∧ v.frac.toNat ≤ 4095 ∧ v.mod.toNat ≤ 4095 ∧
        ∃ cp abp pw ax sel, lutCp Config.standard o.cpCurrent = some cp ∧ lutAbp Config.standard o.abpWidth = some abp ∧
          lutPwr Config.standard o.outPwr = some pw ∧ lutPwr Config.standard o.auxPwr = some ax ∧
          outDivSel Config.standard v.outdiv = some sel ∧ ws = compose Config.standard o v cp abp pw ax sel :=
  pack_ok_iff

/-- The output-divider select, value by value: the exponent of a power of two up to 64 (R175). -/
theorem outDivSel_table : ∀ d : BitVec 8, outDivSel Config.standard d =
    if d = 1 then some 0 else if d = 2 then some 1 else if d = 4 then some 2 else if d = 8 then some 3
    else if d = 16 then some 4 else if d = 32 then some 5 else if d = 64 then some 6 else none := by
  decide

/-- The six composed words as numbers: nothing is cut off when the operands fit their fields (R196). -/
theorem compose_toNat {c : Config} {o : Options} {v : Settings} {cp abp pw ax sel : Nat} (hr : c.r5Reserved ≤ 3)
    (hi : v.int.toNat ≤ 65535) (hf : v.frac.toNat ≤ 4095) (hm : v.mod.toNat ≤ 4095) (hc : cp < 16) (ha : abp < 2)
    (hp : pw < 4) (hx : ax < 4) (hs : sel < 8) :
    (compose c o v cp abp pw ax sel).w0.toNat = word0 v ∧ (compose c o v cp abp pw ax sel).w1.toNat = word1 o v ∧
    (compose c o v cp abp pw ax sel).w2.toNat = word2 c o v cp abp ∧
    (compose c o v cp abp pw ax sel).w3.toNat = word3 o abp ∧
    (compose c o v cp abp pw ax sel).w4.toNat = word4 o v sel ax pw ∧
    (compose c o v cp abp pw ax sel).w5.toNat = word5 c o := by
  simp only [compose, BitVec.toNat_ofNat]
  have b1 := b_lt (o.phase == 0#12)
  have b2 := b_lt (o.phase != 0#12)
  have b3 := b_lt (v.frac != 0#64)
  have b4 := b_lt (abp != c.abpDefaultIndex)
  refine ⟨?_,?_,?_,?_,?_,?_⟩ <;> apply Nat.mod_eq_of_lt
  · rw [word0_eq (by omega)]; omega
  · rw [word1_eq (by omega)]
    have := o.presc89.isLt
    omega
  · rw [word2_eq (by omega)]
    have := o.noiseMode.isLt
    have := o.muxout.isLt
    have := o.refDbl.isLt
    have := o.refHalf.isLt
    have := o.rCounter.isLt
    have := o.dblBuf.isLt
    have := o.pdPol.isLt
    have := o.pwrDn.isLt
    have := o.cpTri.isLt
    have := o.cntRst.isLt
    omega
  · rw [word3_eq ha]
    have := o.csr.isLt
    have := o.clkdivMode.isLt
    have := o.clkdivVal.isLt
    have := o.bscMode.isLt
    have := o.chgCancel.isLt
    split <;> omega
  · rw [word4_eq (by omega) (by omega) (by omega)]
    have := o.fbSel.isLt
    have := v.bscdiv.isLt
    have := o.vcoPd.isLt
    have := o.mtld.isLt
    have := o.auxSel.isLt
    have := o.auxEn.isLt
    have := o.outEn.isLt
    omega
  · rw [word5_eq hr]
    have := o.ldPin.isLt
    omega

/-- The indices of the hits of a sound configuration fit their fields. -/
theorem hits_lt {c : Config} (h : c.Ok) {o : Options} {d : BitVec 8} {cp abp pw ax sel : Nat}
    (h1 : lutCp c o.cpCurrent = some cp) (h2 : lutAbp c o.abpWidth = some abp) (h3 : lutPwr c o.outPwr = some pw)
    (h4 : lutPwr c o.auxPwr = some ax) (h5 : outDivSel c d = some sel) :
    cp < 16 ∧ abp < 2 ∧ pw < 4 ∧ ax < 4 ∧ sel < 8 := by
  have hp := h.pwrLength.trans h.pwrTableLen
  refine ⟨(lookup_lt h1).trans_eq (h.cpLength.trans h.cpTableLen), (lookup_lt h2).trans_eq (by rw [h.abp]; rfl),
    (lookup_lt h3).trans_eq hp, (lookup_lt h4).trans_eq hp, ?_⟩
  have := (Option.filter_eq_some_iff.mp h5).2
  have := h.outdivSel
  simp only [decide_eq_true_eq] at *
  omega

/-- The nine checks under the stated values, the limits written out. -/
theorem packChecks_standard (o : Options) (valid : Bool) (v : Settings) :
    packChecks Config.standard o valid v =
      [(!valid, .noSettings),
       (decide (65535 < v.int.toNat), .fieldOutOfRange .int v.int.toNat 65535),
       (decide (4095 < v.frac.toNat), .fieldOutOfRange .frac v.frac.toNat 4095),
       (decide (4095 < v.mod.toNat), .fieldOutOfRange .mod v.mod.toNat 4095),
       ((lutCp Config.standard o.cpCurrent).isNone, .lookupValueNotFound .chargePumpCurrent o.cpCurrent.toNat),
       ((lutAbp Config.standard o.abpWidth).isNone, .lookupValueNotFound .antiBacklashWidth o.abpWidth.toNat),
       ((lutPwr Config.standard o.outPwr).isNone, .lookupValueNotFound .outputPower o.outPwr.toNat),
       ((lutPwr Config.standard o.auxPwr).isNone, .lookupValueNotFound .auxOutputPower o.auxPwr.toNat),
       ((outDivSel Config.standard v.outdiv).isNone, .invalidOutputDividerSelect)] := rfl

end Sys2Proof.Machine
end

