-- ==== Sys2Proof/Laws/PerInstr.lean ====
section
/-! SUPPORT. The fixed bits of every row of `spec/opcode_table.json`, instruction by instruction: under the row's mask,
the bits that the encoder writes are the row's match (`30_encoding.md` R81 to R88, R90). -/

namespace Sys2Proof.Laws.FixedBits

/-- The encoder writes the fixed bits of the row: the command's code in one byte, or a word that agrees with the row's
match under the row's mask. -/
def Statement (i : Instr) : Prop :=
  match i with
  | .nop => encode i = [0x00]
  | .solve => encode i = [0x01]
  | .pack => encode i = [0x02]
  | .ldset => encode i = [0x03]
  | .r0 int frac =>
    encodeR0 int frac &&& 0x80000007 = 0x00000000 ∧
      encode i = wordBytes (encodeR0 int frac)
  | .r1 phaseNz presc89 phaseZ mod =>
    encodeR1 phaseNz presc89 phaseZ mod &&& 0xE7FF0007 = 0x00000001 ∧
      encode i = wordBytes (encodeR1 phaseNz presc89 phaseZ mod)
  | .r2 noiseMode muxout refDbl refHalf rCounter dblBuf cpIdx fracNz abpNdef pdPol pwrDn cpTri cntRst =>
    encodeR2 noiseMode muxout refDbl refHalf rCounter dblBuf cpIdx fracNz abpNdef pdPol pwrDn cpTri cntRst &&& 0x80000007 = 0x00000002 ∧
      encode i = wordBytes (encodeR2 noiseMode muxout refDbl refHalf rCounter dblBuf cpIdx fracNz abpNdef pdPol pwrDn cpTri cntRst)
  | .r3Legacy csr clkdivMode clkdivVal =>
    encodeR3Legacy csr clkdivMode clkdivVal &&& 0xFFFA0007 = 0x00000003 ∧
      encode i = wordBytes (encodeR3Legacy csr clkdivMode clkdivVal)
  | .r3Full bscMode abpIdx chgCancel csr clkdivMode clkdivVal =>
    encodeR3Full bscMode abpIdx chgCancel csr clkdivMode clkdivVal &&& 0xFF1A0007 = 0x00000003 ∧
      encode i = wordBytes (encodeR3Full bscMode abpIdx chgCancel csr clkdivMode clkdivVal)
  | .r4 fbSel outdivSel bscDiv vcoPd mtld auxSel auxEn auxPwr outEn outPwr =>
    encodeR4 fbSel outdivSel bscDiv vcoPd mtld auxSel auxEn auxPwr outEn outPwr &&& 0xFF000007 = 0x00000004 ∧
      encode i = wordBytes (encodeR4 fbSel outdivSel bscDiv vcoPd mtld auxSel auxEn auxPwr outEn outPwr)
  | .r5 ldPin =>
    encodeR5 ldPin &&& 0xFF3FFFFF = 0x00180005 ∧
      encode i = wordBytes (encodeR5 ldPin)

theorem nop : Statement .nop := rfl

theorem solve : Statement .solve := rfl

theorem pack : Statement .pack := rfl

theorem ldset : Statement .ldset := rfl

theorem r0 (int : BitVec 16) (frac : BitVec 12) :
    Statement (.r0 int frac) := by
  refine ⟨?_, rfl⟩
  show (0#1 ++ int ++ frac ++ 0#3) &&&
    (1#1 ++ 0#16 ++ 0#12 ++ 7#3) = _
  simp only [BitVec.and_append, BitVec.and_zero]
  rfl

theorem r1 (phaseNz presc89 phaseZ : Bit) (mod : BitVec 12) :
    Statement (.r1 phaseNz presc89 phaseZ mod) := by
  refine ⟨?_, rfl⟩
  show (0#3 ++ phaseNz ++ presc89 ++ 0#11 ++ phaseZ ++ mod ++ 1#3) &&&
    (7#3 ++ 0#1 ++ 0#1 ++ 2047#11 ++ 0#1 ++ 0#12 ++ 7#3) = _
  simp only [BitVec.and_append, BitVec.and_zero]
  rfl

theorem r2 (noiseMode : BitVec 2) (muxout : BitVec 3) (refDbl refHalf : Bit) (rCounter : BitVec 10) (dblBuf : Bit)
    (cpIdx : BitVec 4) (fracNz abpNdef pdPol pwrDn cpTri cntRst : Bit) :
    Statement (.r2 noiseMode muxout refDbl refHalf rCounter dblBuf cpIdx fracNz abpNdef pdPol pwrDn cpTri cntRst) := by
  refine ⟨?_, rfl⟩
  show (0#1 ++ noiseMode ++ muxout ++ refDbl ++ refHalf ++ rCounter ++ dblBuf ++ cpIdx ++ fracNz ++ abpNdef ++ pdPol ++ pwrDn ++ cpTri ++ cntRst ++ 2#3) &&&
    (1#1 ++ 0#2 ++ 0#3 ++ 0#1 ++ 0#1 ++ 0#10 ++ 0#1 ++ 0#4 ++ 0#1 ++ 0#1 ++ 0#1 ++ 0#1 ++ 0#1 ++ 0#1 ++ 7#3) = _
  simp only [BitVec.and_append, BitVec.and_zero]
  rfl

theorem r3Legacy (csr : Bit) (clkdivMode : BitVec 2) (clkdivVal : BitVec 12) :
    Statement (.r3Legacy csr clkdivMode clkdivVal) := by
  refine ⟨?_, rfl⟩
  show (0#13 ++ csr ++ 0#1 ++ clkdivMode ++ clkdivVal ++ 3#3) &&&
    (8191#13 ++ 0#1 ++ 1#1 ++ 0#2 ++ 0#12 ++ 7#3) = _
  simp only [BitVec.and_append, BitVec.and_zero]
  rfl

theorem r3Full (bscMode abpIdx chgCancel csr : Bit) (clkdivMode : BitVec 2) (clkdivVal : BitVec 12) :
    Statement (.r3Full bscMode abpIdx chgCancel csr clkdivMode clkdivVal) := by
  refine ⟨?_, rfl⟩
  show (0#8 ++ bscMode ++ abpIdx ++ chgCancel ++ 0#2 ++ csr ++ 0#1 ++ clkdivMode ++ clkdivVal ++ 3#3) &&&
    (255#8 ++ 0#1 ++ 0#1 ++ 0#1 ++ 3#2 ++ 0#1 ++ 1#1 ++ 0#2 ++ 0#12 ++ 7#3) = _
  simp only [BitVec.and_append, BitVec.and_zero]
  rfl

theorem r4 (fbSel : Bit) (outdivSel : BitVec 3) (bscDiv : BitVec 8) (vcoPd mtld auxSel auxEn : Bit) (auxPwr : BitVec 2)
    (outEn : Bit) (outPwr : BitVec 2) :
    Statement (.r4 fbSel outdivSel bscDiv vcoPd mtld auxSel auxEn auxPwr outEn outPwr) := by
  refine ⟨?_, rfl⟩
  show (0#8 ++ fbSel ++ outdivSel ++ bscDiv ++ vcoPd ++ mtld ++ auxSel ++ auxEn ++ auxPwr ++ outEn ++ outPwr ++ 4#3) &&&
    (255#8 ++ 0#1 ++ 0#3 ++ 0#8 ++ 0#1 ++ 0#1 ++ 0#1 ++ 0#1 ++ 0#2 ++ 0#1 ++ 0#2 ++ 7#3) = _
  simp only [BitVec.and_append, BitVec.and_zero]
  rfl

theorem r5 (ldPin : BitVec 2) :
    Statement (.r5 ldPin) := by
  refine ⟨?_, rfl⟩
  show (0#8 ++ ldPin ++ 0#1 ++ 3#2 ++ 0#16 ++ 5#3) &&&
    (255#8 ++ 0#2 ++ 1#1 ++ 3#2 ++ 65535#16 ++ 7#3) = _
  simp only [BitVec.and_append, BitVec.and_zero]
  rfl

end Sys2Proof.Laws.FixedBits
end

