-- ==== Sys2Proof/Laws/Solver.lean ====
section
/-! SUPPORT. What a solve that answers Settings has passed, and the plain facts of its steps. -/

namespace Sys2Proof.Machine

/-- A solve succeeds exactly when none of its ten checks fails, and then it answers the five values. -/
theorem solve_ok {c : Config} {f : Hz} {o : Options} {v : Settings} :
    solve c f o = .ok v ↔ (∀ p ∈ solveChecks c f.toNat o, p.1 = false) ∧ v = solved c f.toNat o := by
  unfold solve
  cases h : firstFailing (solveChecks c f.toNat o) with
  | none => exact ⟨fun hv => ⟨firstFailing_none.mp h, (Except.ok.inj hv).symm⟩, fun hv => congrArg _ hv.2.symm⟩
  | some e =>
    simp only [reduceCtorEq, false_iff, not_and]
    intro hn
    exact absurd (firstFailing_none.mpr hn) (by simp [h])

/-- A solve that fails reports the first failing check. -/
theorem solve_error {c : Config} {f : Hz} {o : Options} {e : BlockError} :
    solve c f o = .error e ↔ firstFailing (solveChecks c f.toNat o) = some e := by
  unfold solve
  cases firstFailing (solveChecks c f.toNat o) <;> simp

/-- The ten checks under the stated values, the thresholds written out. -/
theorem solveChecks_standard (f : Nat) (o : Options) :
    solveChecks Config.standard f o =
      [(o.rCounter == 0, .divideByZero .rCounter), (pfd o == 0, .divideByZero .pfd),
       (o.spacingHz == 0, .divideByZero .channelSpacing),
       (o.gcdEn == 1 && Nat.gcd (mod0 o) (frac0 Config.standard f o) == 0, .divideByZero .gcd),
       (decide (32000000 < pfd o) && fracOut Config.standard f o != 0, .fracModeExceedsMaxPfd (pfd o)),
       (decide (90000000 < pfd o) && fracOut Config.standard f o == 0 && o.variant == 1, .intModeExceedsMaxPfd (pfd o)),
       (fracOut Config.standard f o == 0 && o.variant == 1 && o.bscMode == 0 && decide (32000000 < pfd o),
         .bandSelectModeRequiresHigh (pfd o)),
       (bscDiv Config.standard o == 0, .divideByZero .bandSelectDivider),
       (decide (500000 < bscHz Config.standard o), .bandSelectClockTooHigh (bscHz Config.standard o)),
       (decide (125000000 < bscHz Config.standard o),
         .bandSelectClockTooHighForVariant (bscHz Config.standard o))] := rfl

/-- `twoIf` is 1 or 2. -/
theorem twoIf_pos (p : Bit) : 0 < twoIf p := by unfold twoIf; split <;> decide

/-- `twoIf` in the form of the rule. -/
theorem twoIf_eq (p : Bit) : twoIf p = if p = 1 then 2 else 1 := rfl

/-- The search of step 2 under the stated values, exponent by exponent. -/
theorem outDivExp_standard (f : Nat) :
    outDivExp Config.standard f =
      if 2200000000 ≤ f then 0 else if 1100000000 ≤ f then 1 else if 550000000 ≤ f then 2
      else if 275000000 ≤ f then 3 else if 137500000 ≤ f then 4 else if 68750000 ≤ f then 5 else 6 := by
  have hr : List.range (Config.standard.outdivMaxExp + 1) = [0, 1, 2, 3, 4, 5, 6] := by decide
  unfold outDivExp
  rw [hr]
  simp only [standard_vcoMaxHz, standard_outdivMaxExp, List.find?_cons, List.find?_nil]
  norm_num
  repeat' split
  all_goals simp_all

/-- Step 2 under the stated values: the table of thresholds of R132. -/
theorem outDiv_standard (f : Nat) :
    outDiv Config.standard f =
      if 2200000000 ≤ f then 1 else if 1100000000 ≤ f then 2 else if 550000000 ≤ f then 4
      else if 275000000 ≤ f then 8 else if 137500000 ≤ f then 16 else if 68750000 ≤ f then 32 else 64 := by
  unfold outDiv
  rw [outDivExp_standard]
  repeat' split
  all_goals rfl

/-- The functions of the solver give the values of a `Plan`. -/
theorem plan_values {f : Nat} {o : Options} {p : Plan} (h : p.Of f o) :
    pfd o = p.pfd ∧ outDiv Config.standard f = p.d ∧ n1000 Config.standard f o = p.n1000 ∧
      intPart Config.standard f o = p.int ∧ mod0 o = p.mod0 ∧ frac0 Config.standard f o = p.frac0 ∧
      modOut Config.standard f o = p.mod ∧ fracOut Config.standard f o = p.frac ∧ bscDiv Config.standard o = p.b ∧
      bscHz Config.standard o = p.bscHz := by
  have h1 : pfd o = p.pfd := h.pfd.symm
  have h2 : outDiv Config.standard f = p.d := by rw [outDiv_standard]; exact h.d.symm
  have h3 : n1000 Config.standard f o = p.n1000 := by
    rw [h.n1000]; unfold n1000 isFundamental; rw [h1, h2]; simp
  have h4 : intPart Config.standard f o = p.int := by rw [h.int]; unfold intPart; rw [h3]; rfl
  have h5 : mod0 o = p.mod0 := h.mod0.symm
  have h6 : frac0 Config.standard f o = p.frac0 := by rw [h.frac0]; unfold frac0; rw [h3, h5]; rfl
  have h7 : modOut Config.standard f o = p.mod := by
    rw [h.mod]; unfold modOut forceMod reduced reduce; rw [h5, h6]
    by_cases hg : o.gcdEn = 1#1 <;> simp [hg]
  have h8 : fracOut Config.standard f o = p.frac := by
    rw [h.frac]; unfold fracOut reduced reduce; rw [h5, h6]
    by_cases hg : o.gcdEn = 1#1 <;> simp [hg]
  have h9 : bscDiv Config.standard o = p.b := by
    rw [h.b]; unfold bscDiv isModeLow bscScale; rw [h1]; simp
  exact ⟨h1, h2, h3, h4, h5, h6, h7, h8, h9, by rw [h.bscHz]; unfold bscHz; rw [h1, h9]⟩

/-- `forceMod` never answers 1. -/
theorem forceMod_ne_one (m : Nat) : forceMod m ≠ 1 := by unfold forceMod; split <;> omega

end Sys2Proof.Machine
end

