-- ==== Sys2Proof/Tests/Slice0.lean ====
section
/-! SUPPORT. Tests on fixed values, none a statement for the provers: the well-formedness smoke test, the decoding of
words written out in the spec, one or two steps for each row of the table with the results of `95_test_vectors.md`, and
for every statement with hypotheses a concrete case that meets them. -/

namespace Sys2Proof.Tests

open Sys2Proof.Machine

/-- The base Options of `95_test_vectors.md`. -/
def base : Options :=
  { Options.undriven with
    variant := 1, fbSel := 1, refHz := 25000000, spacingHz := 100000, rCounter := 1, pdPol := 1, clkdivVal := 150,
    ldPin := 1, presc89 := 1, outPwr := 5, auxPwr := 0xFC, cpCurrent := 250, abpWidth := 10, outEn := 1 }

/-- The block after reset, the host driving these Options and this frequency. -/
def at' (f : Hz) (o : Options) : State := { State.reset with freqHz := f, opt := o }

/-- The block holding these Settings, the host driving these Options. -/
def holding (v : Settings) (o : Options) : State := { State.reset with opt := o, settings := v, setValid := true }

/-- The Settings after vector S1. -/
def set1 : Settings := ⟨96, 0, 250, 1, 200⟩

/-- The Options of vector K3. -/
def optK3 : Options :=
  { base with
    variant := 0, noiseMode := 3, muxout := 6, clkdivMode := 1, auxSel := 1, auxEn := 1, presc89 := 0, outPwr := 2,
    auxPwr := 0xFF, cpCurrent := 188, abpWidth := 6, phase := 1, dblBuf := 1, csr := 1, mtld := 1, chgCancel := 1,
    bscMode := 1 }

/-- The words of vector K3. -/
def wordsK3 : Words := ⟨0x004506A8, 0x100007D1, 0x78006BC2, 0x000484B3, 0x00BC8774, 0x00580005⟩

/-- The words of vector K4, which is K3 on `FULL`. -/
def wordsK4 : Words := { wordsK3 with w3 := 0x00E484B3 }

/-- The words of example E1. -/
def wordsE1 : Words := ⟨0x00300000, 0x080087D1, 0x00004E42, 0x000004B3, 0x008C803C, 0x00580005⟩

/-- The block after the `PACK` of example E1. -/
def packed1 : State := { holding set1 base with words := wordsE1, regValid := true }

/-- The block after the `PACK` of vector K3 or K4, the host reading location `i`. -/
def reading (ws : Words) (i : BitVec 3) : State :=
  { State.reset with setValid := true, settings := ⟨138, 213, 250, 8, 200⟩, words := ws, regValid := true,
                     act := .read, rdIdx := i }

/-- The next state, if there is one. -/
def next? (x : Host.Outcome State Fault Refusal) : Option State :=
  match x with
  | .next t => some t
  | .fault _ => none
  | .refused _ => none

/-- What a command leaves of `SET`, as the host sees it, with `REG_VALID` and `STATUS`. -/
def shown (x : Host.Outcome State Fault Refusal) : Option (Option Settings × Bool × Status) :=
  (next? x).map fun t => (settingsPort t, t.regValid, t.status)

/-- What a command leaves of the words, as the host sees them, with `SET_VALID` and `STATUS`. -/
def packedAs (x : Host.Outcome State Fault Refusal) : Option (Option Words × Bool × Status) :=
  (next? x).map fun t => (wordsPort t, t.setValid, t.status)

/-! ### WellFormed: one ill-formed term for each check -/

theorem test_wf_r1_equal_flags : (Instr.r1 1 0 1 250).wellFormed 1 = false := by decide
theorem test_wf_r4_select_seven : (Instr.r4 0 7 200 0 0 0 0 0 0 0).wellFormed 1 = false := by decide
theorem test_wf_legacy_word_on_full : (Instr.r3Legacy 1 1 150).wellFormed 1 = false := by decide
theorem test_wf_full_word_without_extras_on_legacy : (Instr.r3Full 0 0 0 1 1 150).wellFormed 0 = false := by decide
theorem test_wf_accepts : (Instr.r1 1 0 0 250).wellFormed 0 = true ∧ (Instr.r3Full 1 0 0 1 1 150).wellFormed 1 = true := by
  decide

/-! ### Decode: one word for every row, from `30_encoding.md` R81 and `95_test_vectors.md` X8 -/

theorem test_decode_nop : decode 1 [0b00] = .ok .nop := by rfl
theorem test_decode_solve : decode 1 [0b01] = .ok .solve := by rfl
theorem test_decode_pack : decode 1 [0b10] = .ok .pack := by rfl
theorem test_decode_ldset : decode 1 [0b11] = .ok .ldset := by rfl
theorem test_decode_r0 : decode 0 [0x00, 0x45, 0x06, 0xA8] = .ok (.r0 138 213) := by rfl
theorem test_decode_r1 : decode 0 [0x10, 0x00, 0x07, 0xD1] = .ok (.r1 1 0 0 250) := by rfl
theorem test_decode_r2 : decode 0 [0x78, 0x00, 0x6B, 0xC2] = .ok (.r2 3 6 0 0 1 1 5 1 1 1 0 0 0) := by rfl
theorem test_decode_r3Legacy : decode 0 [0x00, 0x04, 0x84, 0xB3] = .ok (.r3Legacy 1 1 150) := by rfl
theorem test_decode_r3Full : decode 1 [0x00, 0xE4, 0x84, 0xB3] = .ok (.r3Full 1 1 1 1 1 150) := by rfl
theorem test_decode_r4 : decode 0 [0x00, 0xBC, 0x87, 0x74] = .ok (.r4 1 3 200 0 1 1 1 1 1 2) := by rfl
theorem test_decode_r5 : decode 0 [0x00, 0x58, 0x00, 0x05] = .ok (.r5 1) := by rfl

/-- R91: addresses 6 and 7. R90: bit 31 of word 0, bits [20:19] of word 5. Bytes of no row. -/
theorem test_decode_refuses :
    decodeWord 1 0x00000006 = .error (.noSuchAddress 6) ∧ decodeWord 1 0x80000000 = .error (.fixedBits 0) ∧
      decodeWord 1 0x00580000 = .ok (.r0 176 0) ∧ decodeWord 1 0x00400005 = .error (.fixedBits 5) ∧
      decode 1 [4] = .error (.beyondCommandPort 4) ∧ decode 1 [0, 0] = .error (.badLength 2) := by
  refine ⟨rfl, rfl, rfl, rfl, rfl, rfl⟩

/-! ### One step of each row -/

/-- Vectors of `40_commands.md`: `NOP` after reset leaves the reset state (R112). -/
theorem test_nop : command 0b00 State.reset = .next State.reset := by rfl

/-- The example of R114. -/
theorem test_ldset :
    shown (command 0b11 { packed1 with setIn := ⟨96, 0, 250, 3, 200⟩ }) =
      some (some ⟨96, 0, 250, 3, 200⟩, false, Status.ok) := by decide

/-- Vector S7: product before quotient, floors, divider 8. -/
theorem test_solve_S7 :
    shown (command 0b01 (at' 433920000 base)) = some (some ⟨138, 213, 250, 8, 200⟩, false, Status.ok) := by decide

/-- Vector S40: the first of two failing checks is reported, and `SET` holds no value. -/
theorem test_solve_S40 :
    shown (command 0b01 { packed1 with freqHz := 2400000000, opt := { base with refHz := 100000000 } }) =
      some (none, false, ⟨2, 0, 100000000, 0⟩) := by decide

/-- Vector K4: every field of the layout, on `FULL`. -/
theorem test_pack_K4 :
    packedAs (command 0b10 (holding ⟨138, 213, 250, 8, 200⟩ { optK3 with variant := 1 })) =
      some (some wordsK4, true, Status.ok) := by decide

/-- Vector L14: a miss shows the port's 8 bits, zero-extended, and `SET` stays. -/
theorem test_pack_L14 :
    packedAs (command 0b10 (holding set1 { base with outPwr := 0xFB })) = some (none, true, ⟨7, 6, 251, 0⟩) := by decide

theorem test_read_r0 : step (reading wordsK3 0) = .next { reading wordsK3 0 with hostWord := 0x004506A8 } := by rfl
theorem test_read_r1 : step (reading wordsK3 1) = .next { reading wordsK3 1 with hostWord := 0x100007D1 } := by rfl
theorem test_read_r2 : step (reading wordsK3 2) = .next { reading wordsK3 2 with hostWord := 0x78006BC2 } := by rfl
theorem test_read_r3Legacy : step (reading wordsK3 3) = .next { reading wordsK3 3 with hostWord := 0x000484B3 } := by
  rfl
theorem test_read_r3Full : step (reading wordsK4 3) = .next { reading wordsK4 3 with hostWord := 0x00E484B3 } := by rfl
theorem test_read_r4 : step (reading wordsK3 4) = .next { reading wordsK3 4 with hostWord := 0x00BC8774 } := by rfl
theorem test_read_r5 : step (reading wordsK3 5) = .next { reading wordsK3 5 with hostWord := 0x00580005 } := by rfl

/-- R250, R253: reset clears both flags and `STATUS` and touches no port. -/
theorem test_reset :
    (next? (pulseReset { packed1 with status := ⟨7, 4, 300, 0⟩ })).map
        (fun t => (t.setValid, t.regValid, t.status, t.opt == base)) = some (false, false, Status.ok, true) := by decide

/-- The 24 bytes of X10. -/
theorem test_serialize :
    serialize packed1 = some [0x00, 0x58, 0x00, 0x05, 0x00, 0x8C, 0x80, 0x3C, 0x00, 0x00, 0x04, 0xB3, 0x00, 0x00, 0x4E,
      0x42, 0x08, 0x00, 0x87, 0xD1, 0x00, 0x30, 0x00, 0x00] := by decide

/-- The port of X2. -/
theorem test_status_port : statusPort ⟨7, 4, 300, 0⟩ = 0x1D00000000000000012C0000 := by decide

/-! ### Witnesses: for every statement with hypotheses, a case that meets them together, one for each clause at a
boundary of its range -/

/-- S1, and S49 with the clock at 500 kHz exactly. -/
theorem witness_SolveSucceeds :
    (∃ (s : State) (p : Plan), p.Of s.freqHz.toNat s.opt ∧ p.divisorsOk s.opt ∧ p.legal s.opt ∧ p.b ≠ 0 ∧
      p.bscHz ≤ 500000) ∧
      ∃ (s : State) (p : Plan), p.Of s.freqHz.toNat s.opt ∧ p.divisorsOk s.opt ∧ p.legal s.opt ∧ p.b ≠ 0 ∧
        p.bscHz = 500000 :=
  ⟨⟨at' 2400000000 base, ⟨25000000, 1, 96000, 96, 250, 0, 250, 0, 200, 125000⟩, by constructor <;> decide,
      by unfold Plan.divisorsOk; decide, by unfold Plan.legal; decide, by decide, by decide⟩,
    ⟨at' 2400000000 { base with bscDivIn := 50 }, ⟨25000000, 1, 96000, 96, 250, 0, 250, 0, 50, 500000⟩,
      by constructor <;> decide, by unfold Plan.divisorsOk; decide, by unfold Plan.legal; decide, by decide, by decide⟩⟩

/-- S27, S28, S29, S30, S31: one for each divisor. -/
theorem witness_SolveReportsZeroDivisor :
    (∃ (s : State) (p : Plan), p.Of s.freqHz.toNat s.opt ∧ s.opt.rCounter = 0) ∧
    (∃ (s : State) (p : Plan), p.Of s.freqHz.toNat s.opt ∧ s.opt.rCounter ≠ 0 ∧ p.pfd = 0) ∧
    (∃ (s : State) (p : Plan), p.Of s.freqHz.toNat s.opt ∧ s.opt.rCounter ≠ 0 ∧ p.pfd ≠ 0 ∧ s.opt.spacingHz = 0) ∧
    (∃ (s : State) (p : Plan), p.Of s.freqHz.toNat s.opt ∧ s.opt.rCounter ≠ 0 ∧ p.pfd ≠ 0 ∧ s.opt.spacingHz ≠ 0 ∧
      s.opt.gcdEn = 1 ∧ Nat.gcd p.mod0 p.frac0 = 0) ∧
    ∃ (s : State) (p : Plan), p.Of s.freqHz.toNat s.opt ∧ p.divisorsOk s.opt ∧ p.legal s.opt ∧ p.b = 0 :=
  ⟨⟨at' 2400000000 { base with rCounter := 0 }, ⟨0, 1, 0, 0, 250, 0, 250, 0, 0, 0⟩, by constructor <;> decide, by decide⟩,
    ⟨at' 2400000000 { base with refHz := 5, rCounter := 10 }, ⟨0, 1, 0, 0, 0, 0, 0, 0, 0, 0⟩,
      by constructor <;> decide, by decide⟩,
    ⟨at' 2400000000 { base with spacingHz := 0 }, ⟨25000000, 1, 96000, 96, 0, 0, 0, 0, 200, 125000⟩,
      by constructor <;> decide, by decide⟩,
    ⟨at' 2400000000 { base with refHz := 50000, gcdEn := 1 }, ⟨50000, 1, 48000000, 48000, 0, 0, 0, 0, 0, 0⟩,
      by constructor <;> decide, by decide⟩,
    ⟨at' 2400000000 { base with refHz := 50000 }, ⟨50000, 1, 48000000, 48000, 0, 0, 0, 0, 0, 0⟩,
      by constructor <;> decide, by unfold Plan.divisorsOk; decide, by unfold Plan.legal; decide, by decide⟩⟩

/-- S36, S48, and S37 with the other end of the third range, 90 MHz exactly in mode low. -/
theorem witness_SolveRejectsIllegalPfd :
    (∃ (s : State) (p : Plan), p.Of s.freqHz.toNat s.opt ∧ p.divisorsOk s.opt ∧ p.pfd = 32000001 ∧ p.frac ≠ 0) ∧
    (∃ (s : State) (p : Plan), p.Of s.freqHz.toNat s.opt ∧ p.divisorsOk s.opt ∧ p.pfd = 90000001 ∧ p.frac = 0 ∧
      s.opt.variant = 1) ∧
    (∃ (s : State) (p : Plan), p.Of s.freqHz.toNat s.opt ∧ p.divisorsOk s.opt ∧ p.frac = 0 ∧ s.opt.variant = 1 ∧
      s.opt.bscMode = 0 ∧ p.pfd = 32000001) ∧
    ∃ (s : State) (p : Plan), p.Of s.freqHz.toNat s.opt ∧ p.divisorsOk s.opt ∧ p.frac = 0 ∧ s.opt.variant = 1 ∧
      s.opt.bscMode = 0 ∧ p.pfd = 90000000 :=
  ⟨⟨at' 2400000000 { base with refHz := 32000001 }, ⟨32000001, 1, 74999, 74, 320, 319, 320, 319, 255, 125490⟩,
      by constructor <;> decide, by unfold Plan.divisorsOk; decide, by decide⟩,
    ⟨at' 2340000026 { base with refHz := 90000001, bscMode := 1, bscDivIn := 200 },
      ⟨90000001, 1, 26000, 26, 900, 0, 900, 0, 200, 450000⟩, by constructor <;> decide,
      by unfold Plan.divisorsOk; decide, by decide⟩,
    ⟨at' 2400000075 { base with refHz := 32000001 }, ⟨32000001, 1, 75000, 75, 320, 0, 320, 0, 255, 125490⟩,
      by constructor <;> decide, by unfold Plan.divisorsOk; decide, by decide⟩,
    ⟨at' 2340000000 { base with refHz := 90000000 }, ⟨90000000, 1, 26000, 26, 900, 0, 900, 0, 255, 352941⟩,
      by constructor <;> decide, by unfold Plan.divisorsOk; decide, by decide⟩⟩

/-- The Options of S54: the lowest PFD frequency whose derived clock is too high. -/
def optS54 : Options := { base with refHz := 127500255, spacingHz := 127500255, variant := 0 }

/-- S31, S54 and S49. -/
theorem witness_SolveRejectsFastBandSelectClock :
    (∃ (s : State) (p : Plan), p.Of s.freqHz.toNat s.opt ∧ p.divisorsOk s.opt ∧ p.legal s.opt ∧ p.b = 0) ∧
    (∃ (s : State) (p : Plan), p.Of s.freqHz.toNat s.opt ∧ p.divisorsOk s.opt ∧ p.legal s.opt ∧ p.b ≠ 0 ∧
      p.bscHz = 500001) ∧
    ∃ (s : State) (p : Plan), p.Of s.freqHz.toNat s.opt ∧ p.divisorsOk s.opt ∧ p.legal s.opt ∧ p.b ≠ 0 ∧
      p.bscHz = 500000 :=
  ⟨⟨at' 2400000000 { base with refHz := 50000 }, ⟨50000, 1, 48000000, 48000, 0, 0, 0, 0, 0, 0⟩,
      by constructor <;> decide, by unfold Plan.divisorsOk; decide, by unfold Plan.legal; decide, by decide⟩,
    ⟨at' 2400000000 optS54, ⟨127500255, 1, 18823, 18, 1, 0, 2, 0, 255, 500001⟩, by constructor <;> decide,
      by unfold Plan.divisorsOk; decide, by unfold Plan.legal; decide, by decide⟩,
    ⟨at' 2400000000 { base with bscDivIn := 50 }, ⟨25000000, 1, 96000, 96, 250, 0, 250, 0, 50, 500000⟩,
      by constructor <;> decide, by unfold Plan.divisorsOk; decide, by unfold Plan.legal; decide, by decide⟩⟩

theorem witness_VariantClockCheckIsDead :
    Config.standard.bscMaxHz ≤ Config.standard.bscVariantMaxHz ∧ ∃ t, exec .solve (at' 2400000000 base) = .next t :=
  ⟨by decide, _, rfl⟩

theorem witness_OutputDividerThresholds : (68749999 : Nat) ≤ 68750000 := by decide

theorem witness_ReductionIsIdempotent : Nat.gcd 250 125 ≠ 0 ∧ Nat.gcd 1 0 ≠ 0 := by decide

theorem witness_RoundingsAgreeOnWholeSteps : Config.standard.bscLowScale = 8 := by decide

/-- Both ends of the first range and the start of the second. -/
theorem witness_DerivedDividerKeepsClockLegal :
    (base.bscDivIn = 0 ∧ base.bscMode = 0) ∧ pfd { base with refHz := 125000 } = 125000 ∧
      pfd { base with refHz := 127500254 } = 127500254 ∧ pfd { base with refHz := 32000000 } = 32000000 := by decide

/-- S1. -/
theorem witness_SolveGuarantees : ∃ t, exec .solve (at' 2400000000 base) = .next t ∧ t.setValid = true :=
  ⟨_, rfl, by decide⟩

/-- Two states that agree on the ports `SOLVE` reads and differ elsewhere. -/
theorem witness_SolveReadsOnlyItsPorts :
    ∃ a b s t : State, a.freqHz = b.freqHz ∧ a.opt.refHz = b.opt.refHz ∧ a.opt.refDbl = b.opt.refDbl ∧
      a.opt.refHalf = b.opt.refHalf ∧ a.opt.rCounter = b.opt.rCounter ∧ a.opt.fbSel = b.opt.fbSel ∧
      a.opt.spacingHz = b.opt.spacingHz ∧ a.opt.gcdEn = b.opt.gcdEn ∧ a.opt.variant = b.opt.variant ∧
      a.opt.bscMode = b.opt.bscMode ∧ a.opt.bscDivIn = b.opt.bscDivIn ∧ exec .solve a = .next s ∧
      exec .solve b = .next t ∧ a.opt ≠ b.opt ∧ a.words ≠ b.words :=
  ⟨at' 2400000000 { base with muxout := 5 }, { packed1 with freqHz := 2400000000 }, _, _, rfl, rfl, rfl, rfl, rfl, rfl, rfl,
    rfl, rfl, rfl, rfl, rfl, rfl, by decide, by decide⟩

/-- E1, and the largest operands at the last entry of every table. -/
theorem witness_PackWritesSixWords :
    (∃ s : State, s.inRange ∧ s.opt.hits 7 0 3 0 ∧ s.settings.outdiv.toNat = 2 ^ 0) ∧
      ∃ s : State, s.inRange ∧ s.opt.hits 15 1 3 3 ∧ (6 : Nat) ≤ 6 ∧ s.settings.outdiv.toNat = 2 ^ 6 :=
  ⟨⟨holding set1 base, by unfold State.inRange Options.hits; decide⟩,
    ⟨holding ⟨65535, 4095, 4095, 64, 255⟩ { base with cpCurrent := 500, abpWidth := 6, auxPwr := 5 },
      by unfold State.inRange Options.hits; decide⟩⟩

theorem witness_PackNeedsSettings : State.reset.setValid = false := by rfl

/-- K9, K12 and 4096 for MOD, the earlier fields at their limits. -/
theorem witness_PackRangeChecks :
    (∃ s : State, s.setValid = true ∧ s.settings.int.toNat = 65536) ∧
    (∃ s : State, s.setValid = true ∧ s.settings.int.toNat = 65535 ∧ s.settings.frac.toNat = 4096) ∧
    ∃ s : State, s.setValid = true ∧ s.settings.int.toNat = 65535 ∧ s.settings.frac.toNat = 4095 ∧
      s.settings.mod.toNat = 4096 :=
  ⟨⟨holding ⟨65536, 0, 0, 1, 0⟩ base, by decide⟩, ⟨holding ⟨65535, 4096, 0, 1, 0⟩ base, by decide⟩,
    ⟨holding ⟨65535, 4095, 4096, 1, 0⟩ base, by decide⟩⟩

/-- L4, L11, L15 and L19. -/
theorem witness_PackLookupMisses :
    (∃ s : State, s.inRange ∧ s.opt.cpCurrent.toNat ∉ Config.standard.cpTable) ∧
    (∃ s : State, s.inRange ∧ s.opt.cpCurrent.toNat ∈ Config.standard.cpTable ∧
      s.opt.abpWidth.toNat ∉ Config.standard.abpTable) ∧
    (∃ s : State, s.inRange ∧ s.opt.cpCurrent.toNat ∈ Config.standard.cpTable ∧
      s.opt.abpWidth.toNat ∈ Config.standard.abpTable ∧ s.opt.outPwr.toInt ∉ Config.standard.pwrTable) ∧
    ∃ s : State, s.inRange ∧ s.opt.cpCurrent.toNat ∈ Config.standard.cpTable ∧
      s.opt.abpWidth.toNat ∈ Config.standard.abpTable ∧ s.opt.outPwr.toInt ∈ Config.standard.pwrTable ∧
      s.opt.auxPwr.toInt ∉ Config.standard.pwrTable :=
  ⟨⟨holding set1 { base with cpCurrent := 300 }, by unfold State.inRange; decide⟩,
    ⟨holding set1 { base with cpCurrent := 31, abpWidth := 8 }, by unfold State.inRange; decide⟩,
    ⟨holding set1 { base with cpCurrent := 500, abpWidth := 6, outPwr := 6 }, by unfold State.inRange; decide⟩,
    ⟨holding set1 { base with auxPwr := 0x80 }, by unfold State.inRange; decide⟩⟩

/-- L23: 128 is a power of two above the last one. -/
theorem witness_PackRejectsOtherDividers :
    (holding ⟨96, 0, 250, 128, 200⟩ base).inRange ∧ base.hits 7 0 3 0 ∧
      (128 : BitVec 8) ∉ ([1, 2, 4, 8, 16, 32, 64] : List (BitVec 8)) := by
  unfold State.inRange Options.hits; decide

/-- Two states that differ in the four Options that `PACK` does not read, in the words and in `STATUS`. -/
theorem witness_PackReadsOnlyItsOperands :
    ∃ a b s t : State, a.setValid = b.setValid ∧ a.settings = b.settings ∧
      { a.opt with refHz := b.opt.refHz, spacingHz := b.opt.spacingHz, gcdEn := b.opt.gcdEn,
                   bscDivIn := b.opt.bscDivIn } = b.opt ∧
      exec .pack a = .next s ∧ exec .pack b = .next t ∧ a.opt ≠ b.opt ∧ a.words ≠ b.words ∧ a.status ≠ b.status :=
  ⟨{ packed1 with status := ⟨8, 0, 0, 0⟩ }, holding set1 { base with refHz := 1, spacingHz := 2, gcdEn := 1, bscDivIn := 3 },
    _, _, rfl, rfl, rfl, rfl, rfl, by decide, by decide, by decide⟩

/-- E1 against the same with another `opt.ld_pin` (every row but the last agrees) and with another `opt.clkdiv_val`
(every row but that of word 3 agrees). -/
theorem witness_WordDependencies :
    ∃ s t u, exec .pack (holding set1 base) = .next s ∧ exec .pack (holding set1 { base with ldPin := 2 }) = .next t ∧
      exec .pack (holding set1 { base with clkdivVal := 7 }) = .next u ∧ s.regValid = true ∧ t.regValid = true ∧
      u.regValid = true :=
  ⟨_, _, _, rfl, rfl, rfl, by decide, by decide, by decide⟩

/-- K3 on `LEGACY` and K4 on `FULL`. -/
theorem witness_UnpackRecoversOperands :
    ∃ s t, exec .pack (holding ⟨138, 213, 250, 8, 200⟩ optK3) = .next s ∧ s.regValid = true ∧ optK3.variant = 0 ∧
      wordAt s.words 5 = some 0x00580005 ∧
      exec .pack (holding ⟨138, 213, 250, 8, 200⟩ { optK3 with variant := 1 }) = .next t ∧ t.regValid = true :=
  ⟨_, _, rfl, by decide, rfl, by decide, rfl, by decide⟩

theorem witness_PackedWordsAreWellFormed :
    ∃ t, exec .pack (holding set1 base) = .next t ∧ t.regValid = true ∧ wordAt t.words 0 = some 0x00300000 ∧
      wordAt t.words 5 = some 0x00580005 :=
  ⟨_, rfl, by decide, by decide, by decide⟩

/-- The fields of X8, one clause after the other. -/
theorem witness_ReadDeliversEveryFormat :
    (reading wordsK3 0).regValid = true ∧ wordAt wordsK3 0 = some 0x004506A8 ∧ wordAt wordsK3 1 = some 0x100007D1 ∧
      wordAt wordsK3 2 = some 0x78006BC2 ∧ wordAt wordsK3 3 = some 0x000484B3 ∧ wordAt wordsK4 3 = some 0x00E484B3 ∧
      wordAt wordsK3 4 = some 0x00BC8774 ∧ wordAt wordsK3 5 = some 0x00580005 ∧
      0x004506A8 = 138 * 2 ^ 15 + 213 * 2 ^ 3 ∧ 0x100007D1 = 1 * 2 ^ 28 + 0 * 2 ^ 27 + 0 * 2 ^ 15 + 250 * 2 ^ 3 + 1 ∧
      0x78006BC2 = 3 * 2 ^ 29 + 6 * 2 ^ 26 + 0 * 2 ^ 25 + 0 * 2 ^ 24 + 1 * 2 ^ 14 + 1 * 2 ^ 13 + 5 * 2 ^ 9 + 1 * 2 ^ 8 +
        1 * 2 ^ 7 + 1 * 2 ^ 6 + 0 * 2 ^ 5 + 0 * 2 ^ 4 + 0 * 2 ^ 3 + 2 ∧
      0x000484B3 = 1 * 2 ^ 18 + 1 * 2 ^ 15 + 150 * 2 ^ 3 + 3 ∧
      0x00E484B3 = 1 * 2 ^ 23 + 1 * 2 ^ 22 + 1 * 2 ^ 21 + 1 * 2 ^ 18 + 1 * 2 ^ 15 + 150 * 2 ^ 3 + 3 ∧
      0x00BC8774 = 1 * 2 ^ 23 + 3 * 2 ^ 20 + 200 * 2 ^ 12 + 0 * 2 ^ 11 + 1 * 2 ^ 10 + 1 * 2 ^ 9 + 1 * 2 ^ 8 + 1 * 2 ^ 6 +
        1 * 2 ^ 5 + 2 * 2 ^ 3 + 4 ∧
      0x00580005 = 1 * 2 ^ 22 + 3 * 2 ^ 19 + 5 := by decide

/-- After reset the port shows no word. -/
theorem witness_FormatStopsWithoutItsWord :
    Instr.r5 1 ≠ .nop ∧ Instr.r5 1 ≠ .solve ∧ Instr.r5 1 ≠ .pack ∧ Instr.r5 1 ≠ .ldset ∧
      ∀ w, wordPort State.reset = .ok w → encode (.r5 1) ≠ wordBytes w :=
  ⟨by decide, by decide, by decide, by decide, by intro w h; cases h⟩

/-- E1 packed, read at locations 0 and 5; index 6; and location 5 after reset. -/
theorem witness_HostReadReturnsTheWord :
    packed1.Inv ∧ ({ packed1 with act := .read } : State).rst = 0 ∧ packed1.regValid = true ∧
      wordAt packed1.words 0 = some 0x00300000 ∧ wordAt packed1.words 5 = some 0x00580005 ∧ 5 < (6 : BitVec 3).toNat ∧
      State.reset.Inv ∧ (5 : BitVec 3).toNat ≤ 5 ∧ State.reset.regValid = false :=
  ⟨⟨fun _ => rfl, fun _ => ⟨base, by rfl⟩, by rfl⟩, rfl, rfl, rfl, rfl, by decide,
    ⟨fun h => (by cases h), fun h => (by cases h), by rfl⟩, by decide, rfl⟩

theorem witness_SerializeOrder :
    State.reset.regValid = false ∧ packed1.regValid = true ∧ wordAt packed1.words 5 = some 0x00580005 := by decide

theorem witness_StepRunsTheDecodedInstruction :
    (State.reset.rst = 0 ∧ fetch State.reset = .ok [0] ∧ decode State.reset.opt.variant [0] = .ok .nop) ∧
      fetch (reading wordsK3 5) = .ok [0x00, 0x58, 0x00, 0x05] ∧
      decode (reading wordsK3 5).opt.variant [0x00, 0x58, 0x00, 0x05] = .ok (.r5 1) :=
  ⟨⟨rfl, rfl, rfl⟩, rfl, rfl⟩

theorem witness_CommandPortSelectsTheCommand :
    State.reset.rst = 0 ∧ State.reset.act = .command ∧ State.reset.cmd = 0b00 ∧
      ({ State.reset with cmd := 1 } : State).cmd = 0b01 ∧ ({ State.reset with cmd := 2 } : State).cmd = 0b10 ∧
      ({ State.reset with cmd := 3 } : State).cmd = 0b11 := by decide

theorem witness_ResetWinsOverTheCommand : ({ packed1 with rst := 1, cmd := 1 } : State).rst = 1 := by rfl

theorem witness_StepKeepsTheInvariant : State.reset.Inv ∧ step State.reset = .next State.reset :=
  ⟨⟨fun h => (by cases h), fun h => (by cases h), by rfl⟩, by rfl⟩

theorem witness_ValidWordsCarryTheirAddress :
    packed1.Inv ∧ packed1.regValid = true ∧ wordAt packed1.words 5 = some 0x00580005 :=
  ⟨⟨fun _ => rfl, fun _ => ⟨base, by rfl⟩, by rfl⟩, rfl, rfl⟩

theorem witness_EachCommandWritesItsRow : ({ State.reset with rst := 1 } : State).rst = 1 := by rfl

theorem witness_CodesOfEachCommand :
    ∃ a b c d e, exec .nop packed1 = .next a ∧ exec .ldset packed1 = .next b ∧ exec .solve packed1 = .next c ∧
      exec .pack packed1 = .next d ∧ step { packed1 with rst := 1 } = .next e :=
  ⟨_, _, _, _, _, rfl, rfl, rfl, rfl, rfl⟩

theorem witness_NoStepWritesAPort : ∃ t, step (at' 2400000000 base) = .next t := ⟨_, rfl⟩

theorem witness_OnlyPackWritesWords : ∃ t, exec .pack (holding set1 base) = .next t ∧ t.words ≠ (holding set1 base).words :=
  ⟨_, rfl, by decide⟩

theorem witness_OnlyAReadCanStop :
    State.reset.act = .command ∧ ({ State.reset with rst := 1 } : State).rst = 1 ∧ State.reset.Inv ∧
      step { packed1 with act := .read, rdIdx := 7 } = .fault .readNoLocation ∧
      step { State.reset with act := .read } = .fault .readNoValue :=
  ⟨rfl, rfl, ⟨fun h => (by cases h), fun h => (by cases h), by rfl⟩, rfl, rfl⟩

theorem witness_SolveThenPackIsIdempotent :
    ∃ a b c d, exec .solve (at' 2400000000 base) = .next a ∧ exec .pack a = .next b ∧ exec .solve b = .next c ∧
      exec .pack c = .next d := ⟨_, _, _, _, rfl, rfl, rfl, rfl⟩

/-- S1 and S27. -/
theorem witness_CalcPacksOnlyAfterOk :
    ∃ t u, runLine .solve (at' 2400000000 base) = .next t ∧ t.status.code = 0 ∧
      runLine .solve (at' 2400000000 { base with rCounter := 0 }) = .next u ∧ u.status.code ≠ 0 :=
  ⟨_, _, rfl, by decide, rfl, by decide⟩

theorem witness_DecodeOfEncode :
    (Instr.r3Legacy 1 1 150).formatOk 0 = true ∧ (Instr.r3Full 0 0 0 1 1 150).formatOk 1 = true ∧
      (Instr.r3Full 1 0 0 1 1 150).formatOk 0 = true := by decide

theorem witness_EncodeOfDecode :
    decode 0 [0x00, 0xE4, 0x84, 0xB3] = .ok (.r3Full 1 1 1 1 1 150) ∧ decode 0 [0b11] = .ok .ldset := ⟨rfl, rfl⟩

theorem witness_LookupFindsExactlyTheEntries :
    [31, 500].Nodup ∧ ([31, 500] : List Int)[1]? = some 500 ∧ lookup ([31, 500] : List Int) 500 = some 1 := by decide

/-- A configuration with narrower registers and another rounding, a 50 MHz limit and a cap of 200. -/
def narrow : Config :=
  { Config.standard with
    wHz := 32, wInt := 38, wFrac := 32, wMod := 32, bscRounding := .productOfFloor, pfdFracMaxHz := 50000000,
    bscDivCap := 200 }

theorem narrow_ok : narrow.Ok := by constructor <;> decide

theorem narrow_fits : (at' 2400000000 { base with refHz := 12500000 }).Fits narrow :=
  ⟨by decide, by decide, by decide, ⟨by decide, by decide, by decide⟩, fun h => (by cases h), by decide⟩

/-- A port of the stated width that the narrower machine does not have. -/
theorem test_narrow_refuses_a_wide_port : ¬(at' (2 ^ 32) base).Fits narrow := fun h => absurd h.freqHz (by decide)

/-- R144, the example `pfd = 12_500_000`: 96 with `product_of_floor`, 100 with the default and `ceil_of_product`. -/
theorem test_solve_by_configured_rounding :
    (next? (execWith narrow .solve (at' 2400000000 { base with refHz := 12500000 }))).map (·.settings.bscdiv) = some 96 ∧
      (next? (execWith { narrow with bscRounding := .ceilOfProduct } .solve
        (at' 2400000000 { base with refHz := 12500000 }))).map (·.settings.bscdiv) = some 100 ∧
      (next? (exec .solve (at' 2400000000 { base with refHz := 12500000 }))).map (·.settings.bscdiv) = some 100 := by
  decide

theorem witness_EveryConfigurationKeepsItsWidths :
    narrow.Ok ∧ (at' 2400000000 { base with refHz := 12500000 }).Fits narrow ∧
      ∃ t, stepWith narrow { at' 2400000000 { base with refHz := 12500000 } with cmd := 1 } = .next t :=
  ⟨narrow_ok, narrow_fits, _, rfl⟩

theorem witness_EveryConfigurationSolvesExactly :
    narrow.Ok ∧ (at' 2400000000 { base with refHz := 12500000 }).Fits narrow ∧
      ∃ t, execWith narrow .solve (at' 2400000000 { base with refHz := 12500000 }) = .next t ∧ t.setValid = true :=
  ⟨narrow_ok, narrow_fits, _, rfl, by decide⟩

/-- One case for each rounding, the divider derived. -/
theorem witness_ConfiguredRoundingReachesSet :
    narrow.Ok ∧ narrow.bscRounding = .productOfFloor ∧ ({ narrow with bscRounding := .ceilOfProduct } : Config).Ok ∧
      Config.standard.Ok ∧ Config.standard.bscRounding = .floorOfProduct ∧ base.bscDivIn = 0 ∧ base.bscMode = 0 ∧
      ∃ t u v, execWith narrow .solve (at' 2400000000 base) = .next t ∧ t.setValid = true ∧
        execWith { narrow with bscRounding := .ceilOfProduct } .solve (at' 2400000000 base) = .next u ∧
        u.setValid = true ∧ execWith Config.standard .solve (at' 2400000000 base) = .next v ∧ v.setValid = true :=
  ⟨narrow_ok, rfl, by constructor <;> decide, by constructor <;> decide, rfl, rfl, rfl, _, _, _, rfl, by decide, rfl,
    by decide, rfl, by decide⟩

theorem witness_EveryConfigurationPacksDecodableWords :
    narrow.Ok ∧ ∃ t, execWith narrow .pack (holding set1 base) = .next t ∧ t.regValid = true ∧
      wordAt t.words 0 = some 0x00300000 ∧ wordAt t.words 5 = some 0x00580005 :=
  ⟨narrow_ok, _, rfl, by decide, by decide, by decide⟩

end Sys2Proof.Tests
end

/-! Proofs about every configuration that keeps `Config.Ok` (R6): the bounds of R149 with the widths of the configuration
in place of the stated ones, and the fixed bits of the packed words. -/

namespace Sys2Proof.Machine

/-! ### How large the values of the solver are (R149) -/

/-- The PFD frequency has at most one bit more than the reference. -/
theorem pfd_le (o : Options) : pfd o ≤ o.refHz.toNat * 2 :=
  calc pfd o ≤ o.refHz.toNat * twoIf o.refDbl := (Nat.div_le_self _ _).trans (Nat.div_le_self _ _)
    _ ≤ o.refHz.toNat * 2 := Nat.mul_le_mul_left _ (by unfold twoIf; split <;> decide)

/-- The search of step 2 never answers more than the last exponent tried. -/
theorem outDivExp_le (c : Config) (f : Nat) : outDivExp c f ≤ c.outdivMaxExp := by
  unfold outDivExp
  cases h : (List.range (c.outdivMaxExp + 1)).find? fun n => c.vcoMaxHz / 2 ^ n ≤ f with
  | none => exact le_rfl
  | some n => exact Nat.lt_succ_iff.mp (List.mem_range.mp (List.mem_of_find?_eq_some h))

theorem outDiv_le (c : Config) (f : Nat) : outDiv c f ≤ 2 ^ c.outdivMaxExp :=
  Nat.pow_le_pow_right (by decide) (outDivExp_le c f)

/-- Putting a scale on before a quotient and taking it off after it does not enlarge a number. -/
theorem scaled_div_le (a k p : Nat) : a * k / p / k ≤ a :=
  Nat.div_le_of_le_mul ((Nat.div_le_self _ _).trans_eq (Nat.mul_comm a k))

theorem intPart_le (c : Config) (f : Nat) (o : Options) : intPart c f o ≤ f * outDiv c f := by
  unfold intPart n1000
  split
  · exact scaled_div_le _ _ _
  · exact (scaled_div_le _ _ _).trans (Nat.le_mul_of_pos_right f (Nat.two_pow_pos _))

theorem mod0_le (o : Options) : mod0 o ≤ o.refHz.toNat := Nat.div_le_self _ _

/-- FRAC before reduction is a part of MOD before reduction, because the remainder it scales is below `N_SCALE`. -/
theorem frac0_le (c : Config) (hk : 0 < c.nScale) (f : Nat) (o : Options) : frac0 c f o ≤ mod0 o :=
  Nat.div_le_of_le_mul (Nat.mul_le_mul_right _ (Nat.mod_lt _ hk).le)

/-- The reduction enlarges neither number of the pair. -/
theorem reduced_le (c : Config) (f : Nat) (o : Options) :
    (reduced c f o).1 ≤ mod0 o ∧ (reduced c f o).2 ≤ frac0 c f o := by
  unfold reduced
  split
  · exact ⟨Nat.div_le_self _ _, Nat.div_le_self _ _⟩
  · exact ⟨le_rfl, le_rfl⟩

theorem fracOut_le (c : Config) (hk : 0 < c.nScale) (f : Nat) (o : Options) : fracOut c f o ≤ o.refHz.toNat :=
  (reduced_le c f o).2.trans ((frac0_le c hk f o).trans (mod0_le o))

theorem forceMod_le (m : Nat) : forceMod m ≤ max m 2 := by unfold forceMod; split <;> omega

theorem modOut_le (c : Config) (f : Nat) (o : Options) : modOut c f o ≤ max o.refHz.toNat 2 :=
  (forceMod_le _).trans (max_le_max_right 2 ((reduced_le c f o).1.trans (mod0_le o)))

/-- A derived divider is at most the cap, and a set one is the port's own eight bits. -/
theorem bscDiv_lt (c : Config) (hcap : c.bscDivCap ≤ 255) (o : Options) : bscDiv c o < 2 ^ 8 := by
  unfold bscDiv
  split
  · exact (min_le_right _ _).trans_lt (Nat.lt_succ_of_le hcap)
  · exact o.bscDivIn.isLt

/-- With no divider set and mode low, step 8 answers the smaller of the scaled PFD frequency and the cap (R144). -/
theorem bscDiv_derived (c : Config) {o : Options} (hin : o.bscDivIn = 0) (hmode : o.bscMode = 0) :
    bscDiv c o = min (bscScale c (pfd o)) c.bscDivCap :=
  if_pos ⟨hin, by simp [isModeLow, hmode]⟩

/-! ### Numbers in a number of bits -/

theorem lt_two_pow_mono {n a b : Nat} (hn : n < 2 ^ a) (hab : a ≤ b) : n < 2 ^ b :=
  hn.trans_le (Nat.pow_le_pow_right (by decide) hab)

theorem toNat_ofNat_of_lt {n w : Nat} (hn : n < 2 ^ w) : (BitVec.ofNat w n).toNat = n :=
  (BitVec.toNat_ofNat n w).trans (Nat.mod_eq_of_lt hn)

/-! ### The values of the solver in the widths of a sound configuration -/

section Widths

variable {c : Config} {f : Nat} {o : Options}

theorem intPart_lt (hc : c.Ok) (hf : f < 2 ^ c.wHz) : intPart c f o < 2 ^ c.wInt :=
  calc intPart c f o ≤ f * outDiv c f := intPart_le c f o
    _ ≤ f * 2 ^ c.outdivMaxExp := Nat.mul_le_mul_left _ (outDiv_le c f)
    _ < 2 ^ c.wHz * 2 ^ c.outdivMaxExp := Nat.mul_lt_mul_of_pos_right hf (Nat.two_pow_pos _)
    _ = 2 ^ (c.wHz + c.outdivMaxExp) := (Nat.pow_add _ _ _).symm
    _ ≤ 2 ^ c.wInt := Nat.pow_le_pow_right (by decide) hc.intFits

theorem fracOut_lt (hc : c.Ok) (hr : o.refHz.toNat < 2 ^ c.wHz) : fracOut c f o < 2 ^ c.wFrac :=
  lt_two_pow_mono ((fracOut_le c hc.nScale f o).trans_lt hr) hc.fracFits

theorem modOut_lt (hc : c.Ok) (hr : o.refHz.toNat < 2 ^ c.wHz) : modOut c f o < 2 ^ c.wMod := by
  refine (modOut_le c f o).trans_lt (max_lt ?_ ?_)
  · exact lt_two_pow_mono hr hc.modFits
  · calc 2 < 2 ^ 2 := by decide
      _ ≤ 2 ^ c.wMod := Nat.pow_le_pow_right (by decide) hc.modTwo

theorem pfd_lt (hc : c.Ok) (hr : o.refHz.toNat < 2 ^ c.wHz) : pfd o < 2 ^ c.wInt :=
  calc pfd o ≤ o.refHz.toNat * 2 := pfd_le o
    _ < 2 ^ c.wHz * 2 := Nat.mul_lt_mul_of_pos_right hr Nat.two_pos
    _ = 2 ^ (c.wHz + 1) := (Nat.pow_succ ..).symm
    _ ≤ 2 ^ c.wInt := Nat.pow_le_pow_right (by decide) hc.pfdPayload

theorem outDiv_lt (hc : c.Ok) : outDiv c f < 2 ^ 8 :=
  calc outDiv c f ≤ 2 ^ c.outdivMaxExp := outDiv_le c f
    _ ≤ 2 ^ 6 := Nat.pow_le_pow_right (by decide) hc.outdivExp
    _ < 2 ^ 8 := by decide

/-- The derived divider that reaches `SET` is the exact one, whatever the frequency. -/
theorem solved_bscdiv_toNat (hc : c.Ok) : (solved c f o).bscdiv.toNat = bscDiv c o :=
  toNat_ofNat_of_lt (bscDiv_lt c hc.divCap o)

/-- No field of a solved Settings value cuts a bit off. -/
theorem solved_toNat (hc : c.Ok) (hf : f < 2 ^ c.wHz) (hr : o.refHz.toNat < 2 ^ c.wHz) :
    (solved c f o).int.toNat = intPart c f o ∧ (solved c f o).frac.toNat = fracOut c f o ∧
      (solved c f o).mod.toNat = modOut c f o ∧ (solved c f o).outdiv.toNat = outDiv c f ∧
      (solved c f o).bscdiv.toNat = bscDiv c o := by
  refine ⟨?int, ?frac, ?mod, ?outdiv, solved_bscdiv_toNat hc⟩
  case int => exact toNat_ofNat_of_lt (lt_two_pow_mono (intPart_lt hc hf) hc.intCarrier)
  case frac => exact toNat_ofNat_of_lt (lt_two_pow_mono (fracOut_lt hc hr) hc.fracCarrier)
  case mod => exact toNat_ofNat_of_lt (lt_two_pow_mono (modOut_lt hc hr) hc.modCarrier)
  case outdiv => exact toNat_ofNat_of_lt (outDiv_lt hc)

theorem solved_fits (hc : c.Ok) (hf : f < 2 ^ c.wHz) (hr : o.refHz.toNat < 2 ^ c.wHz) : (solved c f o).Fits c := by
  obtain ⟨hint, hfrac, hmod, -, -⟩ := solved_toNat hc hf hr
  exact ⟨hint.trans_lt (intPart_lt hc hf), hfrac.trans_lt (fracOut_lt hc hr), hmod.trans_lt (modOut_lt hc hr)⟩

end Widths

/-! ### The payload that an error leaves in `STATUS` -/

/-- Every frequency that an error of `SOLVE` shows is the PFD frequency or a quotient of it. -/
theorem solve_error_value_le {c : Config} {f : Hz} {o : Options} {e : BlockError} (h : solve c f o = .error e) :
    (errorStatus e).value.toNat ≤ pfd o := by
  have hall : ∀ p ∈ solveChecks c f.toNat o, (errorStatus p.2).value.toNat ≤ pfd o := by
    have hpfd : pfd o % 2 ^ 70 ≤ pfd o := Nat.mod_le _ _
    have hbsc : bscHz c o % 2 ^ 70 ≤ pfd o := (Nat.mod_le _ _).trans (Nat.div_le_self _ _)
    have hnone : 0 ≤ pfd o := Nat.zero_le _
    simp only [solveChecks, List.forall_mem_cons]
    exact ⟨hnone, hnone, hnone, hnone, hpfd, hpfd, hpfd, hnone, hbsc, hbsc, List.forall_mem_nil _⟩
  exact hall _ (firstFailing_some (solve_error.mp h))

/-- A value that an error of `PACK` shows is a field of a valid `SET` or a looked-up port of at most 16 bits. -/
theorem pack_error_value_lt {c : Config} (hc : c.Ok) {o : Options} {valid : Bool} {v : Settings} {e : BlockError}
    (hv : valid = true → v.Fits c) (h : pack c o valid v = .error e) : (errorStatus e).value.toNat < 2 ^ c.wInt := by
  cases valid with
  | false =>
    obtain rfl : BlockError.noSettings = e := Except.error.inj h
    exact Nat.two_pow_pos _
  | true =>
    obtain ⟨hint, hfrac, hmod⟩ := hv rfl
    have hshow {n : Nat} (hn : n < 2 ^ c.wInt) : n % 2 ^ 70 < 2 ^ c.wInt := (Nat.mod_le _ _).trans_lt hn
    have hport {k : Nat} (p : BitVec k) (hk : k ≤ 16) : p.toNat < 2 ^ c.wInt :=
      lt_two_pow_mono p.isLt (hk.trans hc.lookupPayload)
    have hall : ∀ p ∈ packChecks c o true v, (errorStatus p.2).value.toNat < 2 ^ c.wInt := by
      simp only [packChecks, List.forall_mem_cons]
      refine ⟨Nat.two_pow_pos _, hshow hint, hshow ?frac, hshow ?mod, hshow ?cp, hshow ?abp, hshow ?pw, hshow ?ax,
        Nat.two_pow_pos _, List.forall_mem_nil _⟩
      case frac => exact lt_two_pow_mono hfrac hc.fracPayload
      case mod => exact lt_two_pow_mono hmod hc.modPayload
      case cp => exact hport o.cpCurrent le_rfl
      case abp => exact hport o.abpWidth (by decide)
      case pw => exact hport o.outPwr (by decide)
      case ax => exact hport o.auxPwr (by decide)
    exact hall _ (firstFailing_some (pack_error.mp h))

/-! ### Steps under a configuration -/

/-- Every instruction keeps the widths of a sound configuration. -/
theorem execWith_fits {c : Config} {i : Instr} {s t : State} (hc : c.Ok) (hs : s.Fits c)
    (h : execWith c i s = .next t) : t.Fits c := by
  obtain ⟨hf, hr, hsp, hin, hset, hst⟩ := hs
  obtain ⟨-, rfl⟩ | ⟨-, rfl⟩ | ⟨-, v, hv, rfl⟩ | ⟨-, e, he, rfl⟩ | ⟨-, ws, -, rfl⟩ | ⟨-, e, he, rfl⟩ | ⟨w, -, -, rfl⟩ :=
    execWith_cases h
  · exact ⟨hf, hr, hsp, hin, hset, hst⟩
  · exact ⟨hf, hr, hsp, hin, fun _ => hin, hst⟩
  · obtain ⟨-, rfl⟩ := solve_ok.mp hv
    exact ⟨hf, hr, hsp, hin, fun _ => solved_fits hc hf hr, Nat.two_pow_pos _⟩
  · exact ⟨hf, hr, hsp, hin, by simp, (solve_error_value_le he).trans_lt (pfd_lt hc hr)⟩
  · exact ⟨hf, hr, hsp, hin, hset, Nat.two_pow_pos _⟩
  · exact ⟨hf, hr, hsp, hin, hset, pack_error_value_lt hc hset he⟩
  · exact ⟨hf, hr, hsp, hin, hset, hst⟩

/-- Reset keeps the ports, and leaves `SET` without a value and `STATUS` with the payload 0. -/
theorem resetBlock_fits {c : Config} {s : State} (hs : s.Fits c) : (resetBlock s).Fits c :=
  ⟨hs.freqHz, hs.refHz, hs.spacingHz, hs.setIn, by simp, Nat.two_pow_pos _⟩

/-- A `SOLVE` that leaves `SET_VALID` 1 has written the solved values. -/
theorem execWith_solve_valid {c : Config} {s t : State} (h : execWith c .solve s = .next t) (hv : t.setValid = true) :
    t.settings = solved c s.freqHz.toNat s.opt := by
  obtain ⟨v, hok, he⟩ | ⟨e, -, he⟩ := solveWith_cases c s
  · obtain rfl : writeOk (writeSettings v s) = t := by simpa [execWith, he] using h
    exact (solve_ok.mp hok).2
  · obtain rfl : raise .solve e s = t := by simpa [execWith, he] using h
    simp at hv

/-- A `PACK` that leaves `REG_VALID` 1 has written the words of a pack that succeeded. -/
theorem execWith_pack_valid {c : Config} {s t : State} (h : execWith c .pack s = .next t) (hv : t.regValid = true) :
    pack c s.opt s.setValid s.settings = .ok t.words := by
  obtain ⟨ws, hok, he⟩ | ⟨e, -, he⟩ := packWith_cases c s
  · obtain rfl : writeOk (writeWords ws s) = t := by simpa [execWith, he] using h
    exact hok
  · obtain rfl : raise .pack e s = t := by simpa [execWith, he] using h
    simp at hv

/-! ### The fixed bits of a location -/

/-- The word has the fixed bits of a format that location `k` holds (`30_encoding.md` R83 to R88). -/
def HasFormatOf (k : BitVec 3) (w : Word) : Prop :=
  (k = 0#3 ∧ fixedR0 w = true) ∨ (k = 1#3 ∧ fixedR1 w = true) ∨ (k = 2#3 ∧ fixedR2 w = true) ∨
    (k = 3#3 ∧ fixedR3Full w = true) ∨ (k = 4#3 ∧ fixedR4 w = true) ∨ (k = 5#3 ∧ fixedR5 w = true)

/-- The fixed bits of a location's format have the location's address in bits [2:0]. -/
theorem HasFormatOf.address {k : BitVec 3} {w : Word} (h : HasFormatOf k w) : field w 0 3 = k := by
  obtain ⟨h0, h1, h2, -, h3, h4, h5⟩ := fixed_iff w
  rw [field_eq_iff, Nat.pow_zero, Nat.div_one]
  obtain ⟨rfl, h⟩ | ⟨rfl, h⟩ | ⟨rfl, h⟩ | ⟨rfl, h⟩ | ⟨rfl, h⟩ | ⟨rfl, h⟩ := h
  · exact (h0.mp h).2
  · exact (h1.mp h).2.2
  · exact (h2.mp h).2
  · exact (h3.mp h).2.2.2
  · exact (h4.mp h).2
  · have hlow := (h5.mp h).2
    change w.toNat % 8 = 5
    omega

/-- A word with the fixed bits of a location's format decodes on both variants. -/
theorem HasFormatOf.decodes {k : BitVec 3} {w : Word} (h : HasFormatOf k w) (v : Bit) :
    ∃ i, decodeWord v w = .ok i := by
  rw [decodeWord_ok_iff]
  obtain ⟨-, h⟩ | ⟨-, h⟩ | ⟨-, h⟩ | ⟨-, h⟩ | ⟨-, h⟩ | ⟨-, h⟩ := h <;> simp [h]

/-- The six locations of the word space (`20_memory.md` R61). -/
theorem wordAt_eq_some {ws : Words} {k : BitVec 3} {w : Word} (h : wordAt ws k = some w) :
    (k = 0#3 ∧ ws.w0 = w) ∨ (k = 1#3 ∧ ws.w1 = w) ∨ (k = 2#3 ∧ ws.w2 = w) ∨ (k = 3#3 ∧ ws.w3 = w) ∨
      (k = 4#3 ∧ ws.w4 = w) ∨ (k = 5#3 ∧ ws.w5 = w) := by
  unfold wordAt at h
  split_ifs at h <;> simp_all

section FixedBits

variable {w : Word} {c : Config} {o : Options} {v : Settings}

theorem fixedR0_of_word0 (h : w.toNat = word0 v) (hi : v.int.toNat ≤ 65535) (hf : v.frac.toNat ≤ 4095) :
    fixedR0 w = true := by
  rw [word0_eq (by omega)] at h
  exact (fixed_iff w).1.mpr (by omega)

theorem fixedR1_of_word1 (h : w.toNat = word1 o v) (hm : v.mod.toNat ≤ 4095) : fixedR1 w = true := by
  have hnz := b_lt (o.phase != 0#12)
  have hp := bit_isLt o.presc89
  have hz := b_lt (o.phase == 0#12)
  rw [word1_eq (by omega)] at h
  exact (fixed_iff w).2.1.mpr (by omega)

theorem fixedR2_of_word2 {cp abp : Nat} (h : w.toNat = word2 c o v cp abp) (hcp : cp < 16) : fixedR2 w = true := by
  have hnm := o.noiseMode.isLt
  have hmx := o.muxout.isLt
  have hrd := bit_isLt o.refDbl
  have hrh := bit_isLt o.refHalf
  have hrc := o.rCounter.isLt
  have hdb := bit_isLt o.dblBuf
  have hfn := b_lt (v.frac != 0#64)
  have han := b_lt (abp != c.abpDefaultIndex)
  have hpp := bit_isLt o.pdPol
  have hpd := bit_isLt o.pwrDn
  have hct := bit_isLt o.cpTri
  have hcr := bit_isLt o.cntRst
  rw [word2_eq hcp] at h
  exact (fixed_iff w).2.2.1.mpr (by omega)

theorem fixedR3Full_of_word3 {abp : Nat} (h : w.toNat = word3 o abp) (ha : abp < 2) : fixedR3Full w = true := by
  have hcs := bit_isLt o.csr
  have hcm := o.clkdivMode.isLt
  have hcv := o.clkdivVal.isLt
  have hbm := bit_isLt o.bscMode
  have hcc := bit_isLt o.chgCancel
  rw [word3_eq ha] at h
  refine (fixed_iff w).2.2.2.2.1.mpr ?_
  split at h <;> omega

theorem fixedR4_of_word4 {sel ax pw : Nat} (h : w.toNat = word4 o v sel ax pw) (hs : sel < 8) (hx : ax < 4)
    (hp : pw < 4) : fixedR4 w = true := by
  have hfb := bit_isLt o.fbSel
  have hbd := v.bscdiv.isLt
  have hvp := bit_isLt o.vcoPd
  have hml := bit_isLt o.mtld
  have has := bit_isLt o.auxSel
  have hae := bit_isLt o.auxEn
  have hoe := bit_isLt o.outEn
  rw [word4_eq hs hx hp] at h
  exact (fixed_iff w).2.2.2.2.2.1.mpr (by omega)

theorem fixedR5_of_word5 (h : w.toNat = word5 c o) (hr : c.r5Reserved = 3) : fixedR5 w = true := by
  have hlp := o.ldPin.isLt
  rw [word5_eq hr.le, hr] at h
  exact (fixed_iff w).2.2.2.2.2.2.mpr (by omega)

end FixedBits

/-- Each word of a pack that succeeds under a sound configuration has the fixed bits of its location's format. -/
theorem pack_hasFormatOf {c : Config} (hc : c.Ok) {o : Options} {valid : Bool} {v : Settings} {ws : Words}
    (h : pack c o valid v = .ok ws) {k : BitVec 3} {w : Word} (hw : wordAt ws k = some w) : HasFormatOf k w := by
  obtain ⟨-, hint, hfrac, hmod, cp, abp, pw, ax, sel, hcp, habp, hpw, hax, hsel, rfl⟩ := pack_ok_iff.mp h
  obtain ⟨lcp, labp, lpw, lax, lsel⟩ := hits_lt hc hcp habp hpw hax hsel
  have li := hint.trans hc.intMax
  have lf := hfrac.trans hc.fracMax
  have lm := hmod.trans hc.modMax
  obtain ⟨e0, e1, e2, e3, e4, e5⟩ := compose_toNat (o := o) hc.reserved.le li lf lm lcp labp lpw lax lsel
  obtain ⟨rfl, rfl⟩ | ⟨rfl, rfl⟩ | ⟨rfl, rfl⟩ | ⟨rfl, rfl⟩ | ⟨rfl, rfl⟩ | ⟨rfl, rfl⟩ := wordAt_eq_some hw
  · exact .inl ⟨rfl, fixedR0_of_word0 e0 li lf⟩
  · exact .inr (.inl ⟨rfl, fixedR1_of_word1 e1 lm⟩)
  · exact .inr (.inr (.inl ⟨rfl, fixedR2_of_word2 e2 lcp⟩))
  · exact .inr (.inr (.inr (.inl ⟨rfl, fixedR3Full_of_word3 e3 labp⟩)))
  · exact .inr (.inr (.inr (.inr (.inl ⟨rfl, fixedR4_of_word4 e4 lsel lax lpw⟩))))
  · exact .inr (.inr (.inr (.inr (.inr ⟨rfl, fixedR5_of_word5 e5 hc.reserved⟩))))

/-! ### The statements -/

/-- Settles O51, by the cases of a step: a reset, or an instruction that keeps the widths. -/
theorem everyConfigurationKeepsItsWidths : Obligations.EveryConfigurationKeepsItsWidths := by
  intro c s t hc hs h
  obtain ⟨-, rfl⟩ | ⟨-, bs, i, -, -, hrun⟩ := runStep_cases h
  · exact resetBlock_fits hs
  · exact execWith_fits hc hs hrun

/-- Settles O52: a valid `SET` holds the solved values, and each of them is below its width. -/
theorem everyConfigurationSolvesExactly : Obligations.EveryConfigurationSolvesExactly := by
  intro c s t hc hs h hv
  rw [execWith_solve_valid h hv]
  exact solved_toNat hc hs.freqHz hs.refHz

/-- Settles O53: with no divider set and mode low the divider is derived, and its scale is that of the rounding. -/
theorem configuredRoundingReachesSet : Obligations.ConfiguredRoundingReachesSet := by
  intro c s t hc hin hmode h hv
  have hderived : t.settings.bscdiv.toNat = min (bscScale c (pfd s.opt)) c.bscDivCap := by
    rw [execWith_solve_valid h hv, solved_bscdiv_toNat hc]
    exact bscDiv_derived c hin hmode
  rw [hderived]
  refine ⟨?_, ?_, ?_⟩ <;> intro hround <;> simp only [bscScale, hround]

/-- Settles O54: each word has the fixed bits of its location's format, which fix the address and let it decode. -/
theorem everyConfigurationPacksDecodableWords : Obligations.EveryConfigurationPacksDecodableWords := by
  intro c s t k w hc h hv hw
  have hformat := pack_hasFormatOf hc (execWith_pack_valid h hv) hw
  exact ⟨hformat.address, hformat.decodes s.opt.variant⟩

end Sys2Proof.Machine

/-! Proofs about the block's own state (`10_state.md` R46, R47): the invariant at reset and along every step, what a valid
`SET` and valid words hold, and the ports that no step writes. -/

namespace Sys2Proof.Machine

/-! ### The forms of `STATUS` that an error leaves (R47 item 4) -/

/-- A last check that holds only together with an earlier one is never the one reported. -/
theorem firstFailing_append_dead {l : List (Bool × BlockError)} {c : Bool} {e : BlockError}
    (hdead : c = true → ∃ p ∈ l, p.1 = true) : firstFailing (l ++ [(c, e)]) = firstFailing l := by
  induction l with
  | nil => cases c <;> simp_all [firstFailing]
  | cons p l ih => obtain ⟨d, e'⟩ := p; cases d <;> simp_all [firstFailing]

/-- The checks of `SOLVE` that can be reported: the tenth is dead, because the variant's threshold is not below the one
of the ninth (`41_solver.md` R146). -/
theorem solve_error_mem_dropLast {c : Config} (hord : c.bscMaxHz ≤ c.bscVariantMaxHz) {f : Hz} {o : Options}
    {e : BlockError} (h : solve c f o = .error e) : (true, e) ∈ (solveChecks c f.toNat o).dropLast := by
  have hdead : decide (c.bscVariantMaxHz < bscHz c o) = true →
      ∃ p ∈ (solveChecks c f.toNat o).dropLast, p.1 = true := fun hlt =>
    ⟨(decide (c.bscMaxHz < bscHz c o), .bandSelectClockTooHigh (bscHz c o)), by simp [solveChecks],
      decide_eq_true (hord.trans_lt (of_decide_eq_true hlt))⟩
  exact firstFailing_some ((firstFailing_append_dead hdead).symm.trans (solve_error.mp h))

/-- A failed `SOLVE` leaves a form of `60_exceptions.md` R223. -/
theorem solve_error_legal {f : Hz} {o : Options} {e : BlockError} (h : solve Config.standard f o = .error e) :
    (errorStatus e).legal = true := by
  have hall : ∀ p ∈ (solveChecks Config.standard f.toNat o).dropLast, (errorStatus p.2).legal = true := by
    simp only [solveChecks, List.dropLast, List.forall_mem_cons]
    exact ⟨rfl, rfl, rfl, rfl, rfl, rfl, rfl, rfl, rfl, List.forall_mem_nil _⟩
  exact hall _ (solve_error_mem_dropLast (by decide) h)

/-- A failed `PACK` leaves a form of R223. -/
theorem pack_error_legal {o : Options} {valid : Bool} {v : Settings} {e : BlockError}
    (h : pack Config.standard o valid v = .error e) : (errorStatus e).legal = true := by
  have hall : ∀ p ∈ packChecks Config.standard o valid v, (errorStatus p.2).legal = true := by
    simp only [packChecks, List.forall_mem_cons]
    exact ⟨rfl, rfl, rfl, rfl, rfl, rfl, rfl, rfl, rfl, List.forall_mem_nil _⟩
  exact hall _ (firstFailing_some (pack_error.mp h))

/-! ### The invariant (R47 items 1 and 4) -/

/-- While the words hold no value the invariant asks for nothing but the form of `STATUS`. -/
theorem State.Inv.of_regValid_false {s : State} (hreg : s.regValid = false) (hstatus : s.status.legal = true) :
    s.Inv :=
  ⟨by simp [hreg], by simp [hreg], hstatus⟩

/-- After a pack that succeeds the words are the packer's for the current `SET`, which is valid. -/
theorem State.Inv.of_pack_ok {s : State} {ws : Words}
    (h : pack Config.standard s.opt s.setValid s.settings = .ok ws) : (writeOk (writeWords ws s)).Inv := by
  have hvalid : s.setValid = true := (pack_ok_iff.mp h).1
  exact ⟨fun _ => hvalid, fun _ => ⟨s.opt, hvalid ▸ h⟩, rfl⟩

theorem exec_inv {i : Instr} {s t : State} (hs : s.Inv) (h : exec i s = .next t) : t.Inv := by
  obtain ⟨-, rfl⟩ | ⟨-, rfl⟩ | ⟨-, v, -, rfl⟩ | ⟨-, e, he, rfl⟩ | ⟨-, ws, hok, rfl⟩ | ⟨-, e, he, rfl⟩ |
    ⟨w, -, -, rfl⟩ := exec_cases h
  · exact hs
  · exact .of_regValid_false rfl hs.status
  · exact .of_regValid_false rfl rfl
  · exact .of_regValid_false rfl (solve_error_legal he)
  · exact .of_pack_ok hok
  · exact .of_regValid_false rfl (pack_error_legal he)
  · exact ⟨hs.setValid, hs.words, hs.status⟩

/-! ### What a solved Settings value keeps (R47 item 3) -/

/-- FRAC before reduction is below MOD before reduction, unless MOD is 0. -/
theorem frac0_lt_mod0 {c : Config} (hk : 0 < c.nScale) (f : Nat) {o : Options} (hmod : 0 < mod0 o) :
    frac0 c f o < mod0 o :=
  Nat.div_lt_of_lt_mul (Nat.mul_lt_mul_of_pos_right (Nat.mod_lt _ hk) hmod)

/-- The reduction keeps the order of the pair, because it divides both numbers by a common divisor. -/
theorem reduced_lt {c : Config} {f : Nat} {o : Options} (h : frac0 c f o < mod0 o) :
    (reduced c f o).2 < (reduced c f o).1 := by
  unfold reduced
  split
  · exact Nat.div_lt_div_of_lt_of_dvd (Nat.gcd_dvd_left _ _) h
  · exact h

theorem le_forceMod (m : Nat) : m ≤ forceMod m := by unfold forceMod; split <;> omega

/-- FRAC is below MOD, and where MOD0 is 0 so is FRAC (`41_solver.md` R151 item 3). -/
theorem fracOut_lt_modOut {c : Config} (hk : 0 < c.nScale) (f : Nat) (o : Options) :
    fracOut c f o < modOut c f o ∨ fracOut c f o = 0 := by
  obtain hzero | hpos := Nat.eq_zero_or_pos (mod0 o)
  · right
    have hle : fracOut c f o ≤ mod0 o := (reduced_le c f o).2.trans (frac0_le c hk f o)
    omega
  · left
    exact (reduced_lt (frac0_lt_mod0 hk f hpos)).trans_le (le_forceMod _)

/-- The band-select divider of a solve that succeeds is not 0 (`41_solver.md` R145). -/
theorem bscDiv_ne_zero_of_solve_ok {c : Config} {f : Hz} {o : Options} {v : Settings} (h : solve c f o = .ok v) :
    bscDiv c o ≠ 0 := by
  have hpass := (solve_ok.mp h).1 (bscDiv c o == 0, .divideByZero .bandSelectDivider) (by simp [solveChecks])
  simpa using hpass

/-- The output divider in `SET` is one of the seven powers of two (R132). -/
theorem solved_outdiv_mem (f : Nat) (o : Options) :
    (solved Config.standard f o).outdiv ∈ ([1, 2, 4, 8, 16, 32, 64] : List (BitVec 8)) := by
  have hseven : ∀ n ≤ 6, BitVec.ofNat 8 (2 ^ n) ∈ ([1, 2, 4, 8, 16, 32, 64] : List (BitVec 8)) := by decide
  exact hseven _ (outDivExp_le Config.standard f)

/-- A `SOLVE` that leaves `SET_VALID` 1 has passed every check, and `SET` is the answer of the solver. -/
theorem exec_solve_valid {s t : State} (h : exec .solve s = .next t) (hv : t.setValid = true) :
    solve Config.standard s.freqHz s.opt = .ok t.settings := by
  obtain ⟨v, hok, he⟩ | ⟨e, -, he⟩ := execSolve_cases s
  · obtain rfl : writeOk (writeSettings v s) = t := Host.Outcome.next.inj (he.symm.trans h)
    exact hok
  · obtain rfl : raise .solve e s = t := Host.Outcome.next.inj (he.symm.trans h)
    simp at hv

/-! ### What valid words say of `SET` (R47 item 2) -/

/-- The stated values keep the side conditions of a configuration. -/
theorem standard_ok : Config.standard.Ok := by constructor <;> decide

/-- The output-divider select hits only the seven dividers (`42_lut_encoder.md` R175). -/
theorem mem_of_outDivSel_eq_some {d : BitVec 8} {n : Nat} (h : outDivSel Config.standard d = some n) :
    d ∈ ([1, 2, 4, 8, 16, 32, 64] : List (BitVec 8)) := by
  by_contra hd
  simp only [List.mem_cons, List.not_mem_nil, or_false, not_or] at hd
  obtain ⟨h1, h2, h4, h8, h16, h32, h64⟩ := hd
  rw [outDivSel_table, if_neg h1, if_neg h2, if_neg h4, if_neg h8, if_neg h16, if_neg h32, if_neg h64] at h
  cases h

/-! ### The input ports (R21) -/

/-- No instruction writes an input port. -/
theorem exec_ports {i : Instr} {s t : State} (h : exec i s = .next t) : ports t = ports s ∧ t.rst = s.rst := by
  obtain ⟨-, rfl⟩ | ⟨-, rfl⟩ | ⟨-, v, -, rfl⟩ | ⟨-, e, -, rfl⟩ | ⟨-, ws, -, rfl⟩ | ⟨-, e, -, rfl⟩ | ⟨w, -, -, rfl⟩ :=
    exec_cases h
  all_goals exact ⟨rfl, rfl⟩

/-! ### The statements -/

/-- Settles O33, by the cases of a step: reset leaves no words, and every instruction keeps the invariant. -/
theorem stepKeepsTheInvariant : Obligations.StepKeepsTheInvariant := by
  intro s t hs h
  obtain ⟨-, rfl⟩ | ⟨-, bs, i, -, -, hrun⟩ := step_cases h
  · exact .of_regValid_false rfl rfl
  · exact exec_inv hs hrun

/-- Settles O13: a valid `SET` holds the solved values, in which no field cuts a bit off. -/
theorem solveGuarantees : Obligations.SolveGuarantees := by
  intro s t h hv
  have hok := exec_solve_valid h hv
  obtain ⟨-, hset⟩ := solve_ok.mp hok
  obtain ⟨-, hfrac, hmod, -, hbsc⟩ := solved_toNat (f := s.freqHz.toNat) (o := s.opt) standard_ok s.freqHz.isLt
    s.opt.refHz.isLt
  rw [← hset] at hfrac hmod hbsc
  refine ⟨?mod, ?outdiv, ?bscdiv, ?frac⟩
  case mod =>
    intro hone
    exact forceMod_ne_one _ (hmod.symm.trans (congrArg BitVec.toNat hone))
  case outdiv => rw [hset]; exact solved_outdiv_mem _ _
  case bscdiv =>
    intro hzero
    exact bscDiv_ne_zero_of_solve_ok hok (hbsc.symm.trans (congrArg BitVec.toNat hzero))
  case frac =>
    refine (fracOut_lt_modOut standard_ok.nScale s.freqHz.toNat s.opt).imp (fun hlt => ?_) (fun hzero => ?_)
    · rwa [BitVec.lt_def, hfrac, hmod]
    · exact BitVec.eq_of_toNat_eq (hfrac.trans hzero)

/-- Settles O34: valid words are those of a pack that succeeded, which has passed the range checks and the lookups. -/
theorem validWordsCarryTheirAddress : Obligations.ValidWordsCarryTheirAddress := by
  intro s hs hreg
  obtain ⟨o, hpack⟩ := hs.words hreg
  obtain ⟨-, hint, hfrac, hmod, cp, abp, pw, ax, sel, -, -, -, -, hsel, -⟩ := pack_standard_ok.mp hpack
  exact ⟨⟨hs.setValid hreg, hint, hfrac, hmod⟩, mem_of_outDivSel_eq_some hsel,
    fun k w hw => (pack_hasFormatOf standard_ok hpack hw).address⟩

/-- Settles O37, by the cases of a step: a reset, or an instruction, and neither writes a port. -/
theorem noStepWritesAPort : Obligations.NoStepWritesAPort := by
  intro s t h
  obtain ⟨-, rfl⟩ | ⟨-, bs, i, -, -, hrun⟩ := step_cases h
  · exact ⟨rfl, rfl⟩
  · exact exec_ports hrun

/-- Settles O31, by evaluating the reset state. -/
theorem resetValues : Obligations.ResetValues := ⟨rfl, rfl, rfl, rfl, rfl, rfl, rfl, rfl⟩

/-- Settles O32: reset leaves no words and `STATUS` at `OK`. -/
theorem resetMeetsTheInvariant : Obligations.ResetMeetsTheInvariant := .of_regValid_false rfl rfl

end Sys2Proof.Machine

/-! Proofs about the word space (`20_memory.md` R61 to R68): the host's read of a word, the word formats at the read port,
the only writer of the words, and the serialised form. -/

namespace Sys2Proof

/-! ### A word written again from its fields (R82 to R88, R96) -/

/-- Two fields side by side are one field. -/
theorem field_append {w : Word} {hi lo j k : Nat} (h : hi = lo + k) :
    field w hi j ++ field w lo k = field w lo (j + k) := by
  subst h
  apply BitVec.eq_of_toNat_eq
  rw [toNat_append_add, field_toNat, field_toNat, field_toNat, Nat.add_comm j k, Nat.pow_add, Nat.pow_add, Nat.mod_mul,
    Nat.div_div_eq_div_mul, Nat.mul_comm, Nat.add_comm]

/-- All 32 bits of a word are the word. -/
theorem field_all (w : Word) : field w 0 32 = w := by
  simp [field]

/-! The fixed bits are fields too, so that the encoding is all fields of `w` side by side. -/

section Reencode

variable {w : Word}

theorem encodeR0_fields (h : fixedR0 w = true) : encodeR0 (field w 15 16) (field w 3 12) = w := by
  simp only [fixedR0, Bool.and_eq_true, beq_iff_eq] at h
  obtain ⟨htop, haddr⟩ := h
  rw [encodeR0, ← htop, ← haddr]
  simp only [field_append]
  exact field_all w

theorem encodeR1_fields (h : fixedR1 w = true) :
    encodeR1 (field w 28 1) (field w 27 1) (field w 15 1) (field w 3 12) = w := by
  simp only [fixedR1, Bool.and_eq_true, beq_iff_eq] at h
  obtain ⟨⟨htop, hmid⟩, haddr⟩ := h
  rw [encodeR1, ← htop, ← hmid, ← haddr]
  simp only [field_append]
  exact field_all w

theorem encodeR2_fields (h : fixedR2 w = true) :
    encodeR2 (field w 29 2) (field w 26 3) (field w 25 1) (field w 24 1) (field w 14 10) (field w 13 1) (field w 9 4)
      (field w 8 1) (field w 7 1) (field w 6 1) (field w 5 1) (field w 4 1) (field w 3 1) = w := by
  simp only [fixedR2, Bool.and_eq_true, beq_iff_eq] at h
  obtain ⟨htop, haddr⟩ := h
  rw [encodeR2, ← htop, ← haddr]
  simp only [field_append]
  exact field_all w

theorem encodeR3Legacy_fields (h : fixedR3Legacy w = true) :
    encodeR3Legacy (field w 18 1) (field w 15 2) (field w 3 12) = w := by
  simp only [fixedR3Legacy, Bool.and_eq_true, beq_iff_eq] at h
  obtain ⟨⟨htop, hmid⟩, haddr⟩ := h
  rw [encodeR3Legacy, ← htop, ← hmid, ← haddr]
  simp only [field_append]
  exact field_all w

theorem encodeR3Full_fields (h : fixedR3Full w = true) :
    encodeR3Full (field w 23 1) (field w 22 1) (field w 21 1) (field w 18 1) (field w 15 2) (field w 3 12) = w := by
  simp only [fixedR3Full, Bool.and_eq_true, beq_iff_eq] at h
  obtain ⟨⟨⟨htop, hmid⟩, hbit⟩, haddr⟩ := h
  rw [encodeR3Full, ← htop, ← hmid, ← hbit, ← haddr]
  simp only [field_append]
  exact field_all w

theorem encodeR4_fields (h : fixedR4 w = true) :
    encodeR4 (field w 23 1) (field w 20 3) (field w 12 8) (field w 11 1) (field w 10 1) (field w 9 1) (field w 8 1)
      (field w 6 2) (field w 5 1) (field w 3 2) = w := by
  simp only [fixedR4, Bool.and_eq_true, beq_iff_eq] at h
  obtain ⟨htop, haddr⟩ := h
  rw [encodeR4, ← htop, ← haddr]
  simp only [field_append]
  exact field_all w

theorem encodeR5_fields (h : fixedR5 w = true) : encodeR5 (field w 22 2) = w := by
  obtain ⟨-, -, -, -, -, -, hfixed⟩ := fixed_iff w
  obtain ⟨htop, hlow⟩ := hfixed.mp h
  apply BitVec.eq_of_toNat_eq
  rw [encodeR5_toNat, field_toNat]
  omega

end Reencode

/-- What a word decodes to encodes that word, on either variant. -/
theorem encode_of_decodeWord {v : Bit} {w : Word} {i : Instr} (h : decodeWord v w = .ok i) :
    encode i = wordBytes w := by
  unfold decodeWord at h
  split at h; next g => cases h; exact congrArg wordBytes (encodeR0_fields g)
  split at h; next g => cases h; exact congrArg wordBytes (encodeR1_fields g)
  split at h; next g => cases h; exact congrArg wordBytes (encodeR2_fields g)
  split at h; next g => cases h; exact congrArg wordBytes (encodeR3Legacy_fields (Bool.and_eq_true_iff.mp g).2)
  split at h; next g => cases h; exact congrArg wordBytes (encodeR3Full_fields g)
  split at h; next g => cases h; exact congrArg wordBytes (encodeR4_fields g)
  split at h; next g => cases h; exact congrArg wordBytes (encodeR5_fields g)
  split at h <;> cases h

end Sys2Proof

namespace Sys2Proof.Machine

/-! ### The word formats at the read port (R62, R83 to R88) -/

/-- A word that the port does not show is not received. -/
theorem receiveWord_fault {w : Word} {s : State} (h : wordPort s ≠ .ok w) : receiveWord w s = .fault .wordNotOnPort :=
  if_neg h

/-- An instruction is a command or encodes a word. -/
theorem command_or_encode_word (i : Instr) :
    i = .nop ∨ i = .solve ∨ i = .pack ∨ i = .ldset ∨ ∃ w, encode i = wordBytes w := by
  cases i with
  | nop => exact .inl rfl
  | solve => exact .inr (.inl rfl)
  | pack => exact .inr (.inr (.inl rfl))
  | ldset => exact .inr (.inr (.inr (.inl rfl)))
  | _ => exact .inr (.inr (.inr (.inr ⟨_, rfl⟩)))

/-- A format whose encoding is the word on the port delivers that word. -/
theorem exec_of_wordPort {i : Instr} {w : Word} {s : State} (hport : wordPort s = .ok w) (henc : encode i = wordBytes w) :
    exec i s = .next { s with hostWord := w } :=
  (exec_of_encode henc).trans (receiveWord_next.mpr ⟨hport, rfl⟩)

/-- The same with the encoded word given as a number. -/
theorem exec_of_wordPort_toNat {i : Instr} {w e : Word} {s : State} (hport : wordPort s = .ok w)
    (henc : encode i = wordBytes e) (hnum : w.toNat = e.toNat) : exec i s = .next { s with hostWord := w } :=
  exec_of_wordPort hport (henc.trans (congrArg wordBytes (BitVec.eq_of_toNat_eq hnum.symm)))

/-! ### The step of a host read (R62, R64) -/

/-- The indices that name no location. -/
theorem wordAt_eq_none_iff {ws : Words} {k : BitVec 3} : wordAt ws k = none ↔ 5 < k.toNat := by
  have hsix : 5 < k.toNat ↔ k ≠ 0 ∧ k ≠ 1 ∧ k ≠ 2 ∧ k ≠ 3 ∧ k ≠ 4 ∧ k ≠ 5 := by revert k; decide
  rw [hsix, wordAt]
  split_ifs <;> simp [*]

section Read

variable {s : State}

theorem fetch_of_read (hact : s.act = .read) : fetch s = (wordPort s).map wordBytes := by
  simp [fetch, hact]

/-- A read without a value stops with the fault of the word port. -/
theorem step_read_error {f : Fault} (hrst : s.rst = 0) (hact : s.act = .read) (hport : wordPort s = .error f) :
    step s = .fault f := by
  have hfetch : fetch s = .error f := by rw [fetch_of_read hact, hport]; rfl
  simp [step, runStep, hrst, hfetch]

/-- A word in some format of the table, on the read port, is received as it stands. -/
theorem step_read_ok {w : Word} (hrst : s.rst = 0) (hact : s.act = .read) (hport : wordPort s = .ok w)
    (hdec : ∃ i, decodeWord s.opt.variant w = .ok i) : step s = .next { s with hostWord := w } := by
  obtain ⟨i, hi⟩ := hdec
  have hfetch : fetch s = .ok (wordBytes w) := by rw [fetch_of_read hact, hport]; rfl
  have hstep : step s = exec i s := by simp [step, runStep, hrst, hfetch, decode_wordBytes, hi]
  rw [hstep, exec_of_wordPort hport (encode_of_decodeWord hi)]

end Read

/-- While the invariant holds, every word with a value decodes on either variant. -/
theorem State.Inv.decodes {s : State} (hs : s.Inv) (hreg : s.regValid = true) {k : BitVec 3} {w : Word}
    (hw : wordAt s.words k = some w) (v : Bit) : ∃ i, decodeWord v w = .ok i := by
  obtain ⟨o, hpack⟩ := hs.words hreg
  exact (pack_hasFormatOf standard_ok hpack hw).decodes v

/-! ### The writers of the words (R63) -/

/-- An instruction keeps the words, or it is `PACK`, after which they hold no value or are those of one pack. -/
theorem exec_words {i : Instr} {s t : State} (h : exec i s = .next t) :
    t.words = s.words ∨
      (i = .pack ∧ (t.regValid = false ∨ pack Config.standard s.opt s.setValid s.settings = .ok t.words)) := by
  obtain ⟨-, rfl⟩ | ⟨-, rfl⟩ | ⟨-, v, -, rfl⟩ | ⟨-, e, -, rfl⟩ | ⟨hi, ws, hok, rfl⟩ | ⟨hi, e, -, rfl⟩ | ⟨w, -, -, rfl⟩ :=
    exec_cases h
  · exact .inl rfl
  · exact .inl rfl
  · exact .inl rfl
  · exact .inl rfl
  · exact .inr ⟨hi, .inr hok⟩
  · exact .inr ⟨hi, .inl rfl⟩
  · exact .inl rfl

/-! ### The serialised form (R66 to R68) -/

/-- While the words hold no value there is no serialised form. -/
theorem serialize_of_not_valid {s : State} (hreg : s.regValid = false) : serialize s = none := by
  simp [serialize, wordsPort, hreg]

/-- The serialised form of valid words. -/
theorem serialize_of_valid {s : State} (hreg : s.regValid = true) :
    serialize s = some (wordBytes s.words.w5 ++ wordBytes s.words.w4 ++ wordBytes s.words.w3 ++ wordBytes s.words.w2 ++
      wordBytes s.words.w1 ++ wordBytes s.words.w0) := by
  simp [serialize, wordsPort, hreg]

/-- Word `k` fills the four bytes from `4 * (5 - k)`. -/
theorem serialize_slice {s : State} {bs : List Byte} (hbs : serialize s = some bs) {k : BitVec 3} {w : Word}
    (hw : wordAt s.words k = some w) : (bs.drop (4 * (5 - k.toNat))).take 4 = wordBytes w := by
  cases hreg : s.regValid with
  | false => rw [serialize_of_not_valid hreg] at hbs; cases hbs
  | true =>
    obtain rfl := Option.some.inj ((serialize_of_valid hreg).symm.trans hbs)
    obtain ⟨rfl, rfl⟩ | ⟨rfl, rfl⟩ | ⟨rfl, rfl⟩ | ⟨rfl, rfl⟩ | ⟨rfl, rfl⟩ | ⟨rfl, rfl⟩ := wordAt_eq_some hw
    all_goals rfl

/-- A slice of four bytes that is a word holds its bits [31:24], [23:16], [15:8], [7:0] in this order. -/
theorem bytes_of_slice {bs : List Byte} {n : Nat} {w : Word} (h : (bs.drop n).take 4 = wordBytes w) :
    bs[n]? = some (field w 24 8) ∧ bs[n + 1]? = some (field w 16 8) ∧ bs[n + 2]? = some (field w 8 8) ∧
      bs[n + 3]? = some (field w 0 8) := by
  have hbyte : ∀ j < 4, bs[n + j]? = (wordBytes w)[j]? := fun j hj => by
    rw [← h, List.getElem?_take_of_lt hj, List.getElem?_drop]
  exact ⟨hbyte 0 (by decide), hbyte 1 (by decide), hbyte 2 (by decide), hbyte 3 (by decide)⟩

/-! ### The statements -/

/-- Settles O26: valid words have a format of the table, so the read decodes and delivers; the two other reads stop where
the word port has no value. -/
theorem hostReadReturnsTheWord : Obligations.HostReadReturnsTheWord := by
  intro s hs hrst hact
  refine ⟨fun w hreg hw => ?word, fun hk => ?noLocation, fun hk hreg => ?noValue⟩
  case word => exact step_read_ok hrst hact (memRead_ok.mpr ⟨hreg, hw⟩) (hs.decodes hreg hw _)
  case noLocation =>
    exact step_read_error hrst hact (memRead_error.mpr (.inl ⟨rfl, wordAt_eq_none_iff.mpr hk⟩))
  case noValue =>
    have hloc : wordAt s.words s.rdIdx ≠ none := fun hnone => hk.not_gt (wordAt_eq_none_iff.mp hnone)
    exact step_read_error hrst hact (memRead_error.mpr (.inr ⟨rfl, hreg, hloc⟩))

/-- Settles O24: the sum of a format's fields is the number of its encoding, so the port shows the encoded word. -/
theorem readDeliversEveryFormat : Obligations.ReadDeliversEveryFormat := by
  intro s w hreg hw
  have hport : wordPort s = .ok w := memRead_ok.mpr ⟨hreg, hw⟩
  refine ⟨?r0, ?r1, ?r2, ?r3Legacy, ?r3Full, ?r4, ?r5⟩
  case r0 => intro int frac h; exact exec_of_wordPort_toNat hport rfl (h.trans (encodeR0_toNat ..).symm)
  case r1 => intro nz p89 z mod h; exact exec_of_wordPort_toNat hport rfl (h.trans (encodeR1_toNat ..).symm)
  case r2 =>
    intro nm mx rd rh rc db cp fn an pp pd ct cr h
    exact exec_of_wordPort_toNat hport rfl (h.trans (encodeR2_toNat ..).symm)
  case r3Legacy => intro csr cm cv h; exact exec_of_wordPort_toNat hport rfl (h.trans (encodeR3Legacy_toNat ..).symm)
  case r3Full =>
    intro bm ai cc csr cm cv h
    exact exec_of_wordPort_toNat hport rfl (h.trans (encodeR3Full_toNat ..).symm)
  case r4 =>
    intro fb os bd vp ml as_ ae ap oe op h
    exact exec_of_wordPort_toNat hport rfl (h.trans (encodeR4_toNat ..).symm)
  case r5 => intro lp h; exact exec_of_wordPort_toNat hport rfl (h.trans (encodeR5_toNat ..).symm)

/-- Settles O38: an instruction that does not keep the words is one of the two ways of `PACK`. -/
theorem onlyPackWritesWords : Obligations.OnlyPackWritesWords := by
  intro i s t h hne
  exact (exec_words h).resolve_left hne

/-- Settles O25: what is no command encodes a word, and that word is not on the port. -/
theorem formatStopsWithoutItsWord : Obligations.FormatStopsWithoutItsWord := by
  intro s i hnop hsolve hpack hldset hnot
  obtain h | h | h | h | ⟨w, henc⟩ := command_or_encode_word i
  · exact absurd h hnop
  · exact absurd h hsolve
  · exact absurd h hpack
  · exact absurd h hldset
  · exact (exec_of_encode henc).trans (receiveWord_fault fun hport => hnot w hport henc)

/-- Settles O27: each word is a slice of four bytes. -/
theorem serializeOrder : Obligations.SerializeOrder := by
  intro s
  refine ⟨serialize_of_not_valid, fun hreg => ?_⟩
  have hbs := serialize_of_valid hreg
  refine ⟨_, hbs, rfl, fun k w hw => ?_⟩
  obtain ⟨h3, h2, h1, h0⟩ := bytes_of_slice (serialize_slice hbs hw)
  have htop : w.toNat / 2 ^ 24 % 2 ^ 8 = w.toNat / 2 ^ 24 := Nat.mod_eq_of_lt (Nat.div_lt_of_lt_mul w.isLt)
  simp only [h3, h2, h1, h0, Option.map_some, field_toNat, htop, Nat.pow_zero, Nat.div_one, and_self]

end Sys2Proof.Machine

/-! Proofs about the encoding (`30_encoding.md` R81 to R96): the fixed bits of a row as mask and match, the decoder row
by row, decode and encode as inverses of each other, the words of a pack, the command port, `CALC` and the status
port. -/

namespace Sys2Proof

/-! ### Fields side by side -/

/-- Equal concatenations have equal parts. -/
theorem append_inj {n m : Nat} {x x' : BitVec n} {y y' : BitVec m} : x ++ y = x' ++ y' ↔ x = x' ∧ y = y' := by
  refine ⟨fun h => ⟨?_, ?_⟩, fun ⟨hx, hy⟩ => hx ▸ hy ▸ rfl⟩
  · simpa only [BitVec.extractLsb'_append_eq_left] using congrArg (BitVec.extractLsb' m n) h
  · simpa only [BitVec.extractLsb'_append_eq_right] using congrArg (BitVec.extractLsb' 0 m) h

/-- A mask is tested part by part. -/
theorem and_append_eq_iff {n m : Nat} {x a c : BitVec n} {y b d : BitVec m} :
    (x ++ y) &&& (a ++ b) = c ++ d ↔ x &&& a = c ∧ y &&& b = d := by
  rw [BitVec.and_append, append_inj]

/-! ### The fixed bits of a row as mask and match (R83 to R88)

The word, the mask and the match are cut at the ends of the fixed fields; the mask is all ones on a fixed field and 0
between them. -/

section Masks

variable {w : Word}

theorem fixedR0_iff_mask : fixedR0 w = true ↔ w &&& 0x80000007 = 0x00000000 := by
  have hw : field w 31 1 ++ field w 3 28 ++ field w 0 3 = w := by simp only [field_append]; exact field_all w
  have hcut : (field w 31 1 ++ field w 3 28 ++ field w 0 3) &&& (BitVec.allOnes 1 ++ 0#28 ++ BitVec.allOnes 3) =
      0#1 ++ 0#28 ++ 0#3 ↔ fixedR0 w = true := by
    simp only [and_append_eq_iff, BitVec.and_allOnes, BitVec.and_zero, and_true, fixedR0, Bool.and_eq_true,
      beq_iff_eq]
  rw [← hcut, hw]
  rfl

theorem fixedR1_iff_mask : fixedR1 w = true ↔ w &&& 0xE7FF0007 = 0x00000001 := by
  have hw : field w 29 3 ++ field w 27 2 ++ field w 16 11 ++ field w 3 13 ++ field w 0 3 = w := by
    simp only [field_append]; exact field_all w
  have hcut : (field w 29 3 ++ field w 27 2 ++ field w 16 11 ++ field w 3 13 ++ field w 0 3) &&&
      (BitVec.allOnes 3 ++ 0#2 ++ BitVec.allOnes 11 ++ 0#13 ++ BitVec.allOnes 3) =
      0#3 ++ 0#2 ++ 0#11 ++ 0#13 ++ 1#3 ↔ fixedR1 w = true := by
    simp only [and_append_eq_iff, BitVec.and_allOnes, BitVec.and_zero, and_true, fixedR1, Bool.and_eq_true,
      beq_iff_eq]
  rw [← hcut, hw]
  rfl

theorem fixedR2_iff_mask : fixedR2 w = true ↔ w &&& 0x80000007 = 0x00000002 := by
  have hw : field w 31 1 ++ field w 3 28 ++ field w 0 3 = w := by simp only [field_append]; exact field_all w
  have hcut : (field w 31 1 ++ field w 3 28 ++ field w 0 3) &&& (BitVec.allOnes 1 ++ 0#28 ++ BitVec.allOnes 3) =
      0#1 ++ 0#28 ++ 2#3 ↔ fixedR2 w = true := by
    simp only [and_append_eq_iff, BitVec.and_allOnes, BitVec.and_zero, and_true, fixedR2, Bool.and_eq_true,
      beq_iff_eq]
  rw [← hcut, hw]
  rfl

theorem fixedR3Legacy_iff_mask : fixedR3Legacy w = true ↔ w &&& 0xFFFA0007 = 0x00000003 := by
  have hw : field w 19 13 ++ field w 18 1 ++ field w 17 1 ++ field w 3 14 ++ field w 0 3 = w := by
    simp only [field_append]; exact field_all w
  have hcut : (field w 19 13 ++ field w 18 1 ++ field w 17 1 ++ field w 3 14 ++ field w 0 3) &&&
      (BitVec.allOnes 13 ++ 0#1 ++ BitVec.allOnes 1 ++ 0#14 ++ BitVec.allOnes 3) =
      0#13 ++ 0#1 ++ 0#1 ++ 0#14 ++ 3#3 ↔ fixedR3Legacy w = true := by
    simp only [and_append_eq_iff, BitVec.and_allOnes, BitVec.and_zero, and_true, fixedR3Legacy, Bool.and_eq_true,
      beq_iff_eq]
  rw [← hcut, hw]
  rfl

theorem fixedR3Full_iff_mask : fixedR3Full w = true ↔ w &&& 0xFF1A0007 = 0x00000003 := by
  have hw : field w 24 8 ++ field w 21 3 ++ field w 19 2 ++ field w 18 1 ++ field w 17 1 ++ field w 3 14 ++
      field w 0 3 = w := by
    simp only [field_append]; exact field_all w
  have hcut : (field w 24 8 ++ field w 21 3 ++ field w 19 2 ++ field w 18 1 ++ field w 17 1 ++ field w 3 14 ++
      field w 0 3) &&&
      (BitVec.allOnes 8 ++ 0#3 ++ BitVec.allOnes 2 ++ 0#1 ++ BitVec.allOnes 1 ++ 0#14 ++ BitVec.allOnes 3) =
      0#8 ++ 0#3 ++ 0#2 ++ 0#1 ++ 0#1 ++ 0#14 ++ 3#3 ↔ fixedR3Full w = true := by
    simp only [and_append_eq_iff, BitVec.and_allOnes, BitVec.and_zero, and_true, fixedR3Full, Bool.and_eq_true,
      beq_iff_eq]
  rw [← hcut, hw]
  rfl

theorem fixedR4_iff_mask : fixedR4 w = true ↔ w &&& 0xFF000007 = 0x00000004 := by
  have hw : field w 24 8 ++ field w 3 21 ++ field w 0 3 = w := by simp only [field_append]; exact field_all w
  have hcut : (field w 24 8 ++ field w 3 21 ++ field w 0 3) &&& (BitVec.allOnes 8 ++ 0#21 ++ BitVec.allOnes 3) =
      0#8 ++ 0#21 ++ 4#3 ↔ fixedR4 w = true := by
    simp only [and_append_eq_iff, BitVec.and_allOnes, BitVec.and_zero, and_true, fixedR4, Bool.and_eq_true,
      beq_iff_eq]
  rw [← hcut, hw]
  rfl

theorem fixedR5_iff_mask : fixedR5 w = true ↔ w &&& 0xFF3FFFFF = 0x00180005 := by
  have hw : field w 24 8 ++ field w 22 2 ++ field w 0 22 = w := by simp only [field_append]; exact field_all w
  have hcut : (field w 24 8 ++ field w 22 2 ++ field w 0 22) &&& (BitVec.allOnes 8 ++ 0#2 ++ BitVec.allOnes 22) =
      0#8 ++ 0#2 ++ 0x180005#22 ↔ fixedR5 w = true := by
    simp only [and_append_eq_iff, BitVec.and_allOnes, BitVec.and_zero, and_true, fixedR5, Bool.and_eq_true,
      beq_iff_eq]
  rw [← hcut, hw]
  rfl

end Masks

/-! ### The decoder row by row (R83 to R88, R92, R96) -/

/-- The words of `R3_LEGACY` are those of `R3_FULL` with the three extra fields at 0 (R96). -/
theorem fixedR3Legacy_iff {w : Word} :
    fixedR3Legacy w = true ↔
      fixedR3Full w = true ∧ field w 23 1 = 0#1 ∧ field w 22 1 = 0#1 ∧ field w 21 1 = 0#1 := by
  obtain ⟨-, -, -, hlegacy, hfull, -⟩ := fixed_iff w
  simp only [hlegacy, hfull, field_eq_iff, BitVec.toNat_ofNat]
  omega

/-- `R3_FULL` fits the variant unless `R3_LEGACY` is read there and has the same word (R92, R96). -/
theorem formatOk_r3Full_iff {v bscMode abpIdx chgCancel csr : Bit} {clkdivMode : BitVec 2} {clkdivVal : BitVec 12} :
    (Instr.r3Full bscMode abpIdx chgCancel csr clkdivMode clkdivVal).formatOk v = true ↔
      ¬(v = 0#1 ∧ bscMode = 0#1 ∧ abpIdx = 0#1 ∧ chgCancel = 0#1) := by
  change (v == 1#1 || bscMode == 1#1 || abpIdx == 1#1 || chgCancel == 1#1) = true ↔ _
  revert v bscMode abpIdx chgCancel
  decide

/-- Which words decode to which instruction. The rows do not overlap except at word 3, where `R3_LEGACY` comes first on
`LEGACY`. -/
theorem decodeWord_eq_ok_iff {v : Bit} {w : Word} {i : Instr} :
    decodeWord v w = .ok i ↔
      (fixedR0 w = true ∧ i = .r0 (field w 15 16) (field w 3 12)) ∨
      (fixedR1 w = true ∧ i = .r1 (field w 28 1) (field w 27 1) (field w 15 1) (field w 3 12)) ∨
      (fixedR2 w = true ∧
        i = .r2 (field w 29 2) (field w 26 3) (field w 25 1) (field w 24 1) (field w 14 10) (field w 13 1)
          (field w 9 4) (field w 8 1) (field w 7 1) (field w 6 1) (field w 5 1) (field w 4 1) (field w 3 1)) ∨
      (fixedR3Legacy w = true ∧ v = 0#1 ∧ i = .r3Legacy (field w 18 1) (field w 15 2) (field w 3 12)) ∨
      (fixedR3Full w = true ∧ ¬(v = 0#1 ∧ fixedR3Legacy w = true) ∧
        i = .r3Full (field w 23 1) (field w 22 1) (field w 21 1) (field w 18 1) (field w 15 2) (field w 3 12)) ∨
      (fixedR4 w = true ∧
        i = .r4 (field w 23 1) (field w 20 3) (field w 12 8) (field w 11 1) (field w 10 1) (field w 9 1) (field w 8 1)
          (field w 6 2) (field w 5 1) (field w 3 2)) ∨
      (fixedR5 w = true ∧ i = .r5 (field w 22 2)) := by
  constructor
  · intro h
    unfold decodeWord at h
    split at h; next g => cases h; exact .inl ⟨g, rfl⟩
    split at h; next g => cases h; exact .inr (.inl ⟨g, rfl⟩)
    split at h; next g => cases h; exact .inr (.inr (.inl ⟨g, rfl⟩))
    split at h
    · next g =>
      cases h
      rw [Bool.and_eq_true, beq_iff_eq] at g
      exact .inr (.inr (.inr (.inl ⟨g.2, g.1, rfl⟩)))
    next hlegacy =>
    rw [Bool.and_eq_true, beq_iff_eq] at hlegacy
    split at h; next g => cases h; exact .inr (.inr (.inr (.inr (.inl ⟨g, hlegacy, rfl⟩))))
    split at h; next g => cases h; exact .inr (.inr (.inr (.inr (.inr (.inl ⟨g, rfl⟩)))))
    split at h; next g => cases h; exact .inr (.inr (.inr (.inr (.inr (.inr ⟨g, rfl⟩)))))
    split at h <;> cases h
  · rintro (⟨h, rfl⟩ | ⟨h, rfl⟩ | ⟨h, rfl⟩ | ⟨h, hv, rfl⟩ | ⟨h, hv, rfl⟩ | ⟨h, rfl⟩ | ⟨h, rfl⟩)
    · simp [decodeWord, h]
    · have haddr : field w 0 3 = 1#3 := Machine.HasFormatOf.address (.inr (.inl ⟨rfl, h⟩))
      simp [decodeWord, h, fixedR0, haddr]
    · have haddr : field w 0 3 = 2#3 := Machine.HasFormatOf.address (.inr (.inr (.inl ⟨rfl, h⟩)))
      simp [decodeWord, h, fixedR0, fixedR1, haddr]
    · have haddr : field w 0 3 = 3#3 :=
        Machine.HasFormatOf.address (.inr (.inr (.inr (.inl ⟨rfl, fixedR3Full_of_fixedR3Legacy h⟩))))
      simp [decodeWord, h, hv, fixedR0, fixedR1, fixedR2, haddr]
    · have haddr : field w 0 3 = 3#3 := Machine.HasFormatOf.address (.inr (.inr (.inr (.inl ⟨rfl, h⟩))))
      simp [decodeWord, h, hv, fixedR0, fixedR1, fixedR2, haddr]
    · have haddr : field w 0 3 = 4#3 := Machine.HasFormatOf.address (.inr (.inr (.inr (.inr (.inl ⟨rfl, h⟩)))))
      simp [decodeWord, h, fixedR0, fixedR1, fixedR2, fixedR3Legacy, fixedR3Full, haddr]
    · have haddr : field w 0 3 = 5#3 := Machine.HasFormatOf.address (.inr (.inr (.inr (.inr (.inr ⟨rfl, h⟩)))))
      simp [decodeWord, h, fixedR0, fixedR1, fixedR2, fixedR3Legacy, fixedR3Full, fixedR4, haddr]

/-- The format of a decoded word fits the variant port. -/
theorem formatOk_of_decodeWord {v : Bit} {w : Word} {i : Instr} (h : decodeWord v w = .ok i) : i.formatOk v = true := by
  obtain ⟨-, rfl⟩ | ⟨-, rfl⟩ | ⟨-, rfl⟩ | ⟨-, rfl, rfl⟩ | ⟨hfull, hnot, rfl⟩ | ⟨-, rfl⟩ | ⟨-, rfl⟩ :=
    decodeWord_eq_ok_iff.mp h
  case inr.inr.inr.inr.inl =>
    rw [formatOk_r3Full_iff]
    rintro ⟨hv, hextras⟩
    exact hnot ⟨hv, fixedR3Legacy_iff.mpr ⟨hfull, hextras⟩⟩
  all_goals rfl

/-! ### An encoding has one reading (R83 to R88) -/

theorem encodeR0_inj {int int' : BitVec 16} {frac frac' : BitVec 12} :
    encodeR0 int frac = encodeR0 int' frac' ↔ Instr.r0 int frac = .r0 int' frac' := by
  refine append_inj.trans ?_
  simp only [append_inj, true_and, and_true, Instr.r0.injEq]

theorem encodeR1_inj {nz p89 z nz' p89' z' : Bit} {mod mod' : BitVec 12} :
    encodeR1 nz p89 z mod = encodeR1 nz' p89' z' mod' ↔ Instr.r1 nz p89 z mod = .r1 nz' p89' z' mod' := by
  refine append_inj.trans ?_
  simp only [append_inj, true_and, and_true, and_assoc, Instr.r1.injEq]

theorem encodeR2_inj {nm nm' : BitVec 2} {mx mx' : BitVec 3} {rd rh rd' rh' : Bit} {rc rc' : BitVec 10} {db db' : Bit}
    {cp cp' : BitVec 4} {fn an pp pd ct cr fn' an' pp' pd' ct' cr' : Bit} :
    encodeR2 nm mx rd rh rc db cp fn an pp pd ct cr = encodeR2 nm' mx' rd' rh' rc' db' cp' fn' an' pp' pd' ct' cr' ↔
      Instr.r2 nm mx rd rh rc db cp fn an pp pd ct cr = .r2 nm' mx' rd' rh' rc' db' cp' fn' an' pp' pd' ct' cr' := by
  refine append_inj.trans ?_
  simp only [append_inj, true_and, and_true, and_assoc, Instr.r2.injEq]

theorem encodeR3Legacy_inj {csr csr' : Bit} {cm cm' : BitVec 2} {cv cv' : BitVec 12} :
    encodeR3Legacy csr cm cv = encodeR3Legacy csr' cm' cv' ↔ Instr.r3Legacy csr cm cv = .r3Legacy csr' cm' cv' := by
  refine append_inj.trans ?_
  simp only [append_inj, true_and, and_true, and_assoc, Instr.r3Legacy.injEq]

theorem encodeR3Full_inj {bm ai cc csr bm' ai' cc' csr' : Bit} {cm cm' : BitVec 2} {cv cv' : BitVec 12} :
    encodeR3Full bm ai cc csr cm cv = encodeR3Full bm' ai' cc' csr' cm' cv' ↔
      Instr.r3Full bm ai cc csr cm cv = .r3Full bm' ai' cc' csr' cm' cv' := by
  refine append_inj.trans ?_
  simp only [append_inj, true_and, and_true, and_assoc, Instr.r3Full.injEq]

theorem encodeR4_inj {fb fb' : Bit} {os os' : BitVec 3} {bd bd' : BitVec 8}
    {vp ml aus ae vp' ml' aus' ae' : Bit} {ap ap' : BitVec 2} {oe oe' : Bit} {op op' : BitVec 2} :
    encodeR4 fb os bd vp ml aus ae ap oe op = encodeR4 fb' os' bd' vp' ml' aus' ae' ap' oe' op' ↔
      Instr.r4 fb os bd vp ml aus ae ap oe op = .r4 fb' os' bd' vp' ml' aus' ae' ap' oe' op' := by
  refine append_inj.trans ?_
  simp only [append_inj, true_and, and_true, and_assoc, Instr.r4.injEq]

theorem encodeR5_inj {lp lp' : BitVec 2} : encodeR5 lp = encodeR5 lp' ↔ Instr.r5 lp = .r5 lp' := by
  refine append_inj.trans ?_
  simp only [append_inj, true_and, and_true, Instr.r5.injEq]

/-! ### Commands on the port (R81) -/

/-- A command is encoded as its code. -/
theorem encode_decodeCommand : ∀ cmd : BitVec 2, encode (decodeCommand cmd) = [cmd.setWidth 8] := by decide

/-- A command fits both variants. -/
theorem formatOk_decodeCommand : ∀ (v : Bit) (cmd : BitVec 2), (decodeCommand cmd).formatOk v = true := by decide

/-- The byte that holds the port's two bits decodes to the command of that code. -/
theorem decode_command (v : Bit) : ∀ cmd : BitVec 2, decode v [cmd.setWidth 8] = .ok (decodeCommand cmd) := by
  have hport : ∀ cmd : BitVec 2, field ((cmd.setWidth 8).setWidth 32) 2 6 = 0#6 ∧
      (cmd.setWidth 8).setWidth 2 = cmd := by decide
  intro cmd
  obtain ⟨hhigh, hlow⟩ := hport cmd
  rw [decode, if_pos hhigh, hlow]

/-- A byte without a bit above the port is the port's two bits. -/
theorem setWidth_port {b : Byte} (h : field (b.setWidth 32) 2 6 = 0#6) : (b.setWidth 2).setWidth 8 = b := by
  revert b
  decide

theorem wordBytes_wordOfBytes (b3 b2 b1 b0 : Byte) : wordBytes (wordOfBytes b3 b2 b1 b0) = [b3, b2, b1, b0] := by
  have h := wordOfBytes_wordBytes (wordOfBytes b3 b2 b1 b0)
  obtain ⟨⟨⟨h3, h2⟩, h1⟩, h0⟩ := by simpa only [append_inj] using append_inj.mp h
  rw [wordBytes, h3, h2, h1, h0]

/-- Everything that decodes: the byte of a command, or the four bytes of a word that decodes. -/
theorem decode_cases {v : Bit} {bs : List Byte} {i : Instr} (h : decode v bs = .ok i) :
    (∃ cmd : BitVec 2, bs = [cmd.setWidth 8] ∧ i = decodeCommand cmd) ∨
      ∃ w, bs = wordBytes w ∧ decodeWord v w = .ok i := by
  unfold decode at h
  split at h
  next b =>
    split at h
    next hb => cases h; exact .inl ⟨_, by rw [setWidth_port hb], rfl⟩
    next => cases h
  next b3 b2 b1 b0 => exact .inr ⟨_, (wordBytes_wordOfBytes b3 b2 b1 b0).symm, h⟩
  next => cases h

end Sys2Proof

namespace Sys2Proof.Machine

/-! ### The words of a pack (R90, R91) -/

/-- A decoded word is one that the packer can produce when the two fields that R91 restricts are (R91). -/
theorem produced_of_decodeWord {v : Bit} {w : Word} {i : Instr} (h : decodeWord v w = .ok i)
    (hflags : field w 0 3 = 1#3 → field w 28 1 ≠ field w 15 1) (hsel : field w 0 3 = 4#3 → field w 20 3 ≠ 7#3) :
    i.produced = true := by
  obtain ⟨-, rfl⟩ | ⟨hr1, rfl⟩ | ⟨-, rfl⟩ | ⟨-, -, rfl⟩ | ⟨-, -, rfl⟩ | ⟨hr4, rfl⟩ | ⟨-, rfl⟩ :=
    decodeWord_eq_ok_iff.mp h
  case inr.inl => exact bne_iff_ne.mpr (hflags (HasFormatOf.address (.inr (.inl ⟨rfl, hr1⟩))))
  case inr.inr.inr.inr.inr.inl =>
    exact bne_iff_ne.mpr (hsel (HasFormatOf.address (.inr (.inr (.inr (.inr (.inl ⟨rfl, hr4⟩)))))))
  all_goals rfl

/-- A condition and its negation are different bits. -/
theorem b_ne_b_not (c : Bool) : b c ≠ b !c := by cases c <;> decide

section Packed

variable {w : Word} {o : Options} {v : Settings}

/-- Exactly one of the two phase flags is set (R199). -/
theorem flags_ne_of_word1 (h : w.toNat = word1 o v) (hm : v.mod.toNat ≤ 4095) : field w 28 1 ≠ field w 15 1 := by
  have hbnz := b_lt (o.phase != 0#12)
  have hbz := b_lt (o.phase == 0#12)
  have hp := bit_isLt o.presc89
  rw [word1_eq (by omega)] at h
  have hnz : (field w 28 1).toNat = b (o.phase != 0#12) := by rw [field_toNat]; omega
  have hz : (field w 15 1).toNat = b (o.phase == 0#12) := by rw [field_toNat]; omega
  intro hflags
  rw [hflags, hz] at hnz
  exact b_ne_b_not (o.phase == 0#12) hnz

/-- On `LEGACY` the three extra fields of word 3 are 0 (R201). -/
theorem extras_zero_of_word3 {abp : Nat} (h : w.toNat = word3 o abp) (ha : abp < 2) (hv : o.variant = 0) :
    field w 21 3 = 0 := by
  have hcs := bit_isLt o.csr
  have hcm := o.clkdivMode.isLt
  have hcv := o.clkdivVal.isLt
  have hlegacy : ¬o.variant = 1#1 := by rw [hv]; decide
  rw [word3_eq ha, if_neg hlegacy] at h
  rw [field_eq_iff]
  change w.toNat / 2 ^ 21 % 2 ^ 3 = 0
  omega

/-- A select of at most 6 is not the unused value (R175, R202). -/
theorem select_ne_of_word4 {sel ax pw : Nat} (h : w.toNat = word4 o v sel ax pw) (hs : sel ≤ 6) (hx : ax < 4)
    (hp : pw < 4) : field w 20 3 ≠ 7#3 := by
  have hbd := v.bscdiv.isLt
  have hvp := bit_isLt o.vcoPd
  have hml := bit_isLt o.mtld
  have has := bit_isLt o.auxSel
  have hae := bit_isLt o.auxEn
  have hoe := bit_isLt o.outEn
  rw [word4_eq (by omega) hx hp] at h
  rw [Ne, field_eq_iff, BitVec.toNat_ofNat]
  omega

end Packed

/-- A hit of the output-divider select is at most `OUTDIV_SEL_MAX` (R175). -/
theorem outDivSel_le {c : Config} {d : BitVec 8} {n : Nat} (h : outDivSel c d = some n) : n ≤ c.outdivSelMax :=
  of_decide_eq_true (Option.filter_eq_some_iff.mp h).2

/-- The field values that R91 restricts, in the words of a pack that succeeds. -/
theorem pack_restrictedFields {o : Options} {valid : Bool} {v : Settings} {ws : Words}
    (h : pack Config.standard o valid v = .ok ws) :
    field ws.w1 28 1 ≠ field ws.w1 15 1 ∧ field ws.w4 20 3 ≠ 7#3 ∧ (o.variant = 0 → field ws.w3 21 3 = 0) := by
  obtain ⟨-, hint, hfrac, hmod, cp, abp, pw, ax, sel, hcp, habp, hpw, hax, hsel, rfl⟩ := pack_standard_ok.mp h
  obtain ⟨lcp, labp, lpw, lax, lsel⟩ := hits_lt standard_ok hcp habp hpw hax hsel
  obtain ⟨-, e1, -, e3, e4, -⟩ := compose_toNat (o := o) standard_ok.reserved.le hint hfrac hmod lcp labp lpw lax lsel
  exact ⟨flags_ne_of_word1 e1 hmod, select_ne_of_word4 e4 (outDivSel_le hsel) lax lpw, extras_zero_of_word3 e3 labp⟩

/-- The step of an issued command is that command's meaning. -/
theorem step_command {s : State} (hrst : s.rst = 0) (hact : s.act = .command) :
    step s = exec (decodeCommand s.cmd) s := by
  have hfetch : fetch s = .ok [s.cmd.setWidth 8] := by simp [fetch, hact]
  simp [step, runStep, hrst, hfetch, decode_command]

/-- A script of one line does what the line does. -/
theorem runScript_singleton (line : HostLine) (s : State) : runScript [line] s = runLine line s := by
  rw [runScript]
  cases runLine line s <;> rfl

/-! ### The statements -/

/-- Settles O43, by the rows: a command is read from the port; a word has the fixed bits of its row, so the decoder
slices it, and its slices encode the same word, hence are its fields. -/
theorem decodeOfEncode : Obligations.DecodeOfEncode := by
  intro v i hok
  cases i with
  | nop => exact decode_command v 0
  | solve => exact decode_command v 1
  | pack => exact decode_command v 2
  | ldset => exact decode_command v 3
  | r0 int frac =>
    have hfix := fixedR0_iff_mask.mpr (Laws.FixedBits.r0 int frac).1
    have hread := (encodeR0_inj.mp (encodeR0_fields hfix)).symm
    exact (decode_wordBytes ..).trans (decodeWord_eq_ok_iff.mpr (.inl ⟨hfix, hread⟩))
  | r1 nz p89 z mod =>
    have hfix := fixedR1_iff_mask.mpr (Laws.FixedBits.r1 nz p89 z mod).1
    have hread := (encodeR1_inj.mp (encodeR1_fields hfix)).symm
    exact (decode_wordBytes ..).trans (decodeWord_eq_ok_iff.mpr (.inr (.inl ⟨hfix, hread⟩)))
  | r2 nm mx rd rh rc db cp fn an pp pd ct cr =>
    have hfix := fixedR2_iff_mask.mpr (Laws.FixedBits.r2 nm mx rd rh rc db cp fn an pp pd ct cr).1
    have hread := (encodeR2_inj.mp (encodeR2_fields hfix)).symm
    exact (decode_wordBytes ..).trans (decodeWord_eq_ok_iff.mpr (.inr (.inr (.inl ⟨hfix, hread⟩))))
  | r3Legacy csr cm cv =>
    have hfix := fixedR3Legacy_iff_mask.mpr (Laws.FixedBits.r3Legacy csr cm cv).1
    have hread := (encodeR3Legacy_inj.mp (encodeR3Legacy_fields hfix)).symm
    exact (decode_wordBytes ..).trans
      (decodeWord_eq_ok_iff.mpr (.inr (.inr (.inr (.inl ⟨hfix, beq_iff_eq.mp hok, hread⟩)))))
  | r3Full bm ai cc csr cm cv =>
    have hfix := fixedR3Full_iff_mask.mpr (Laws.FixedBits.r3Full bm ai cc csr cm cv).1
    have hread := (encodeR3Full_inj.mp (encodeR3Full_fields hfix)).symm
    have hnot : ¬(v = 0#1 ∧ fixedR3Legacy (encodeR3Full bm ai cc csr cm cv) = true) := by
      rw [hread, formatOk_r3Full_iff] at hok
      exact fun ⟨hv, hlegacy⟩ => hok ⟨hv, (fixedR3Legacy_iff.mp hlegacy).2⟩
    exact (decode_wordBytes ..).trans
      (decodeWord_eq_ok_iff.mpr (.inr (.inr (.inr (.inr (.inl ⟨hfix, hnot, hread⟩))))))
  | r4 fb os bd vp ml aus ae ap oe op =>
    have hfix := fixedR4_iff_mask.mpr (Laws.FixedBits.r4 fb os bd vp ml aus ae ap oe op).1
    have hread := (encodeR4_inj.mp (encodeR4_fields hfix)).symm
    exact (decode_wordBytes ..).trans
      (decodeWord_eq_ok_iff.mpr (.inr (.inr (.inr (.inr (.inr (.inl ⟨hfix, hread⟩)))))))
  | r5 lp =>
    have hfix := fixedR5_iff_mask.mpr (Laws.FixedBits.r5 lp).1
    have hread := (encodeR5_inj.mp (encodeR5_fields hfix)).symm
    exact (decode_wordBytes ..).trans
      (decodeWord_eq_ok_iff.mpr (.inr (.inr (.inr (.inr (.inr (.inr ⟨hfix, hread⟩)))))))

/-- Settles O44, by the two forms that decode: the byte of a command and the four bytes of a word. -/
theorem encodeOfDecode : Obligations.EncodeOfDecode := by
  intro v bs i h
  obtain ⟨cmd, rfl, rfl⟩ | ⟨w, rfl, hw⟩ := decode_cases h
  · exact ⟨encode_decodeCommand cmd, formatOk_decodeCommand v cmd⟩
  · exact ⟨encode_of_decodeWord hw, formatOk_of_decodeWord hw⟩

/-- Settles O23: a packed word has the fixed bits of its location's format, so it decodes, and the values that R91
excludes could only stand in words 1 and 4. -/
theorem packedWordsAreWellFormed : Obligations.PackedWordsAreWellFormed := by
  intro s t k w h hreg hw
  have hpack : pack Config.standard s.opt s.setValid s.settings = .ok t.words :=
    execWith_pack_valid (exec_eq .pack s ▸ h) hreg
  have hformat := pack_hasFormatOf standard_ok hpack hw
  obtain ⟨hflags, hsel, hextras⟩ := pack_restrictedFields hpack
  obtain ⟨i, hi⟩ := hformat.decodes s.opt.variant
  have haddr := hformat.address
  have hword {n : BitVec 3} {a : Word} (hk : field w 0 3 = n) (ha : wordAt t.words n = some a) : a = w := by
    rw [haddr] at hk
    exact Option.some.inj (ha.symm.trans (hk ▸ hw))
  have hproduced : i.produced = true :=
    produced_of_decodeWord hi (fun h1 => hword h1 rfl ▸ hflags) (fun h4 => hword h4 rfl ▸ hsel)
  have hwf : i.wellFormed s.opt.variant = true := Bool.and_eq_true_iff.mpr ⟨formatOk_of_decodeWord hi, hproduced⟩
  refine ⟨⟨i, hi, hwf⟩, ?six, ?seven, haddr, ?extras⟩
  case six => rintro rfl; cases hw
  case seven => rintro rfl; cases hw
  case extras => exact fun hv h3 => hword (haddr.trans h3) rfl ▸ hextras hv

/-- Settles O45: a word decodes exactly when it has the fixed bits of a row, and these are the row's mask and match. -/
theorem decoderFollowsTheMasks : Obligations.DecoderFollowsTheMasks := by
  intro v w
  rw [decodeWord_ok_iff, fixedR0_iff_mask, fixedR1_iff_mask, fixedR2_iff_mask, fixedR3Full_iff_mask, fixedR4_iff_mask,
    fixedR5_iff_mask]

/-- Settles O29: the step is the meaning of the command that the port's code names, code by code. -/
theorem commandPortSelectsTheCommand : Obligations.CommandPortSelectsTheCommand := by
  intro s hrst hact
  rw [step_command hrst hact]
  refine ⟨?_, ?_, ?_, ?_⟩ <;> intro hcmd <;> rw [hcmd] <;> rfl

/-- Settles O41: after the `SOLVE` line the script is its `IFOK PACK` line. -/
theorem calcPacksOnlyAfterOk : Obligations.CalcPacksOnlyAfterOk := by
  intro s t h
  have hrest : runScript calcScript s = runLine (.ifOk .pack) t := by
    rw [calcScript, runScript, h]
    exact runScript_singleton (.ifOk .pack) t
  rw [hrest]
  exact ⟨fun hok => if_pos hok, fun herr => if_neg herr⟩

/-- Settles O46, by evaluating the decoder on each word. -/
theorem sampleWordsDecode : Obligations.SampleWordsDecode := ⟨rfl, rfl, rfl, rfl, rfl, rfl, rfl, rfl, rfl⟩

/-- Settles O50: the four slices side by side are the port, and so are the four fields. -/
theorem statusPortLayout : Obligations.StatusPortLayout := by
  intro st
  have hcut : (statusPort st).extractLsb' 90 4 ++ (statusPort st).extractLsb' 86 4 ++
      (statusPort st).extractLsb' 16 70 ++ (statusPort st).extractLsb' 0 16 =
      st.code ++ st.field ++ st.value ++ st.max := by
    simp only [BitVec.extractLsb'_append_extractLsb'_eq_extractLsb']
    exact BitVec.extractLsb'_eq_self
  simpa only [append_inj, and_assoc] using hcut

end Sys2Proof.Machine

/-! Proofs about the commands (`40_commands.md` R110 to R119): how a step comes to an instruction's meaning, what each
command writes, and what `SOLVE` then `PACK` leaves for the host to see. -/

namespace Sys2Proof.Machine

/-! ### The step (R110) -/

/-- With `rst` asserted the step is reset, whatever runs the instructions (`70_reset_and_hazards.md` R251). -/
theorem runStep_reset (run : Instr → State → Host.Outcome State Fault Refusal) {s : State} (hrst : s.rst = 1) :
    runStep run s = .next (resetBlock s) := if_pos hrst

/-- With `rst` released the step runs what the fetched bytes decode to, at the same state. -/
theorem runStep_of_decode (run : Instr → State → Host.Outcome State Fault Refusal) {s : State} {bs : List Byte}
    {i : Instr} (hrst : s.rst = 0) (hfetch : fetch s = .ok bs) (hdecode : decode s.opt.variant bs = .ok i) :
    runStep run s = run i s := by
  simp [runStep, hrst, hfetch, hdecode]

/-! ### What each command writes (R119) -/

/-- No error leaves the code of `OK` (`60_exceptions.md` R221). -/
theorem errorStatus_code_ne_zero (e : BlockError) : (errorStatus e).code ≠ 0 := by
  cases e <;> simp [errorStatus]

/-- The row of `LDSET` (R114). -/
theorem exec_ldset (s : State) :
    exec .ldset s = .next { s with settings := s.setIn, setValid := true, regValid := false } := rfl

/-- `SOLVE` completes from every state, in one of its two rows. -/
theorem exec_solve_writes (s : State) :
    ∃ t, exec .solve s = .next t ∧ (SolveDone s t ∨ (SolveFailed s t ∧ t.status.code ≠ 0)) := by
  obtain ⟨v, -, h⟩ | ⟨e, -, h⟩ := execSolve_cases s
  · exact ⟨_, h, .inl (solve_done v s)⟩
  · exact ⟨_, h, .inr ⟨raise_solve_failed e s, errorStatus_code_ne_zero e⟩⟩

/-- `PACK` completes from every state, in one of its two rows. -/
theorem exec_pack_writes (s : State) :
    ∃ t, exec .pack s = .next t ∧ (PackDone s t ∨ (PackFailed s t ∧ t.status.code ≠ 0)) := by
  obtain ⟨ws, -, h⟩ | ⟨e, -, h⟩ := execPack_cases s
  · exact ⟨_, h, .inl (pack_done ws s)⟩
  · exact ⟨_, h, .inr ⟨raise_pack_failed e s, errorStatus_code_ne_zero e⟩⟩

/-! ### What the host sees after `SOLVE` and after `PACK` (R117, R118) -/

theorem settingsPort_of_valid {s : State} (h : s.setValid = true) : settingsPort s = some s.settings := if_pos h

theorem settingsPort_of_not_valid {s : State} (h : s.setValid = false) : settingsPort s = none := if_neg (by simp [h])

/-- After `SOLVE` the `SET` ports show the answer of the solver, or no value. -/
theorem settingsPort_of_exec_solve {s t : State} (h : exec .solve s = .next t) :
    settingsPort t = (solve Config.standard s.freqHz s.opt).toOption := by
  obtain ⟨v, hok, he⟩ | ⟨e, herr, he⟩ := execSolve_cases s
  · obtain rfl : writeOk (writeSettings v s) = t := Host.Outcome.next.inj (he.symm.trans h)
    rw [hok]; rfl
  · obtain rfl : raise .solve e s = t := Host.Outcome.next.inj (he.symm.trans h)
    rw [herr]; rfl

/-- Without settings `PACK` reports that first, whatever bits `SET` has (`43_packer.md` R186). -/
theorem pack_not_valid (c : Config) (o : Options) (v : Settings) : pack c o false v = .error .noSettings :=
  pack_error.mpr rfl

/-- What the host sees after a `PACK`, from the Options and from what the `SET` ports showed before it. -/
def viewAfterPack (o : Options) (port : Option Settings) : View :=
  match port with
  | none => ⟨none, none, errorStatus .noSettings⟩
  | some v =>
    match pack Config.standard o true v with
    | .ok ws => ⟨some v, some ws, Status.ok⟩
    | .error e => ⟨some v, none, errorStatus e⟩

theorem viewAfterPack_ok {o : Options} {v : Settings} {ws : Words} (h : pack Config.standard o true v = .ok ws) :
    viewAfterPack o (some v) = ⟨some v, some ws, Status.ok⟩ := by
  simp [viewAfterPack, h]

theorem viewAfterPack_error {o : Options} {v : Settings} {e : BlockError}
    (h : pack Config.standard o true v = .error e) : viewAfterPack o (some v) = ⟨some v, none, errorStatus e⟩ := by
  simp [viewAfterPack, h]

/-- The words enter the view, and `SET` stays in it as it was (R205). -/
theorem view_writeWords (ws : Words) (s : State) :
    view (writeOk (writeWords ws s)) = ⟨settingsPort s, some ws, Status.ok⟩ := rfl

/-- The words leave the view, and `SET` stays in it as it was (R224). -/
theorem view_raise_pack (e : BlockError) (s : State) :
    view (raise .pack e s) = ⟨settingsPort s, none, errorStatus e⟩ := rfl

/-- The view after `PACK` depends on nothing but the Options and the view of `SET` before it: the bits of a `SET` that
holds no value, and the words and `STATUS` of before, do not enter. -/
theorem view_of_exec_pack {s t : State} (h : exec .pack s = .next t) :
    view t = viewAfterPack s.opt (settingsPort s) := by
  obtain ⟨ws, hok, he⟩ | ⟨e, herr, he⟩ := execPack_cases s
  · obtain rfl : writeOk (writeWords ws s) = t := Host.Outcome.next.inj (he.symm.trans h)
    have hv : s.setValid = true := (pack_ok_iff.mp hok).1
    rw [hv] at hok
    rw [view_writeWords, settingsPort_of_valid hv, viewAfterPack_ok hok]
  · obtain rfl : raise .pack e s = t := Host.Outcome.next.inj (he.symm.trans h)
    rw [view_raise_pack]
    cases hv : s.setValid with
    | false =>
      rw [hv, pack_not_valid] at herr
      obtain rfl : .noSettings = e := Except.error.inj herr
      rw [settingsPort_of_not_valid hv, viewAfterPack]
    | true =>
      rw [hv] at herr
      rw [settingsPort_of_valid hv, viewAfterPack_error herr]

/-- `SOLVE` then `PACK` leaves a view that is a function of `freq_hz` and the Options. -/
theorem view_of_exec_solve_pack {s a b : State} (hsolve : exec .solve s = .next a) (hpack : exec .pack a = .next b) :
    view b = viewAfterPack s.opt (solve Config.standard s.freqHz s.opt).toOption := by
  have hopt : a.opt = s.opt := congrArg Ports.opt (exec_ports hsolve).1
  rw [view_of_exec_pack hpack, hopt, settingsPort_of_exec_solve hsolve]

/-! ### The statements -/

/-- Settles O35, row by row. -/
theorem eachCommandWritesItsRow : Obligations.EachCommandWritesItsRow := by
  intro s
  refine ⟨rfl, exec_ldset s, exec_solve_writes s, exec_pack_writes s, fun hrst => ?_⟩
  exact ⟨resetBlock s, runStep_reset exec hrst, rfl, rfl, rfl, rfl, rfl, rfl⟩

/-- Settles O40: the view after `SOLVE` then `PACK` is a function of ports, which the first pair has not written. -/
theorem solveThenPackIsIdempotent : Obligations.SolveThenPackIsIdempotent := by
  intro s a b c d hsolve hpack hsolve' hpack'
  have hports : ports b = ports s := (exec_ports hpack).1.trans (exec_ports hsolve).1
  have hfreq : b.freqHz = s.freqHz := congrArg Ports.freqHz hports
  have hopt : b.opt = s.opt := congrArg Ports.opt hports
  rw [view_of_exec_solve_pack hsolve' hpack', view_of_exec_solve_pack hsolve hpack, hfreq, hopt]

/-- Settles O1: the code is read from the port, and `NOP` answers its own state. -/
theorem nopKeepsEverything : Obligations.NopKeepsEverything := fun _ v => ⟨decode_command v 0b00, rfl⟩

/-- Settles O2: the code is read from the port, and `LDSET` writes its row. -/
theorem ldsetLoadsSettings : Obligations.LdsetLoadsSettings := fun s v => ⟨decode_command v 0b11, exec_ldset s⟩

/-- Settles O28: the step with `rst` released, at the default configuration. -/
theorem stepRunsTheDecodedInstruction : Obligations.StepRunsTheDecodedInstruction :=
  fun _ _ _ hrst hfetch hdecode => runStep_of_decode exec hrst hfetch hdecode

end Sys2Proof.Machine

/-! Proofs about the solver (`41_solver.md` R130 to R155): how `SOLVE` ends in the values of a `Plan`, the output divider,
the reduction, the bounds, the band-select divider, and what `SOLVE` reads. -/

namespace Sys2Proof.Machine

/-! ### How `SOLVE` ends (R147, R148) -/

/-- When no check fails the solved values enter `SET`. -/
theorem exec_solve_of_pass {s : State}
    (h : firstFailing (solveChecks Config.standard s.freqHz.toNat s.opt) = none) :
    exec .solve s = .next (writeOk (writeSettings (solved Config.standard s.freqHz.toNat s.opt) s)) := by
  have hok := solve_ok.mpr ⟨firstFailing_none.mp h, rfl⟩
  simp only [exec, execSolve, solveWith, hok]

/-- When a check fails, the first one that does is raised. -/
theorem exec_solve_of_fail {s : State} {e : BlockError}
    (h : firstFailing (solveChecks Config.standard s.freqHz.toNat s.opt) = some e) :
    exec .solve s = .next (raise .solve e s) := by
  have herr := solve_error.mpr h
  simp only [exec, execSolve, solveWith, herr]

/-- A reported error ends `SOLVE` with its reading of `STATUS`, in the row of a failed `SOLVE`. -/
theorem exec_solve_failed {s : State} {e : BlockError} {code field value max : Nat}
    (h : firstFailing (solveChecks Config.standard s.freqHz.toNat s.opt) = some e)
    (hreads : (errorStatus e).reads code field value max) :
    ∃ t, exec .solve s = .next t ∧ SolveFailed s t ∧ t.status.reads code field value max :=
  ⟨raise .solve e s, exec_solve_of_fail h, raise_solve_failed e s, hreads⟩

/-- What a verdict of the checks writes into `STATUS` (`60_exceptions.md` R223). -/
def verdictStatus : Option BlockError → Status
  | none => Status.ok
  | some e => errorStatus e

/-- Both flags and `STATUS` after `SOLVE` follow the verdict of its checks. -/
theorem exec_solve_verdict {s t : State} (h : exec .solve s = .next t) :
    t.setValid = (firstFailing (solveChecks Config.standard s.freqHz.toNat s.opt)).isNone ∧ t.regValid = false ∧
      t.status = verdictStatus (firstFailing (solveChecks Config.standard s.freqHz.toNat s.opt)) := by
  cases hverdict : firstFailing (solveChecks Config.standard s.freqHz.toNat s.opt) with
  | none =>
    obtain rfl := Host.Outcome.next.inj ((exec_solve_of_pass hverdict).symm.trans h)
    exact ⟨rfl, rfl, rfl⟩
  | some e =>
    obtain rfl := Host.Outcome.next.inj ((exec_solve_of_fail hverdict).symm.trans h)
    exact ⟨rfl, rfl, rfl⟩

/-! ### The checks of steps 7 to 9 in the values of a plan (R140 to R146) -/

/-- The tenth check never decides: it fails only where the ninth has failed (R146). -/
theorem firstFailing_solveChecks_dropLast {c : Config} (hord : c.bscMaxHz ≤ c.bscVariantMaxHz) (f : Nat) (o : Options) :
    firstFailing (solveChecks c f o) = firstFailing (solveChecks c f o).dropLast := by
  have hdead : decide (c.bscVariantMaxHz < bscHz c o) = true → ∃ p ∈ (solveChecks c f o).dropLast, p.1 = true :=
    fun hlt => ⟨(decide (c.bscMaxHz < bscHz c o), .bandSelectClockTooHigh (bscHz c o)), by simp [solveChecks],
      decide_eq_true (hord.trans_lt (of_decide_eq_true hlt))⟩
  exact firstFailing_append_dead hdead

/-- The error that steps 7 to 9 report first. The check against the variant's own clock limit has no branch (R146). -/
def Plan.verdict (p : Plan) (o : Options) : Option BlockError :=
  if 32000000 < p.pfd ∧ p.frac ≠ 0 then some (.fracModeExceedsMaxPfd p.pfd)
  else if 90000000 < p.pfd ∧ p.frac = 0 ∧ o.variant = 1 then some (.intModeExceedsMaxPfd p.pfd)
  else if p.frac = 0 ∧ o.variant = 1 ∧ o.bscMode = 0 ∧ 32000000 < p.pfd then some (.bandSelectModeRequiresHigh p.pfd)
  else if p.b = 0 then some (.divideByZero .bandSelectDivider)
  else if 500000 < p.bscHz then some (.bandSelectClockTooHigh p.bscHz)
  else none

section Verdict

variable {f : Hz} {o : Options} {p : Plan}

/-- With the divisors before step 7 not 0, the verdict of the ten checks is that of steps 7 to 9. -/
theorem firstFailing_solveChecks (hp : p.Of f.toNat o) (hdiv : p.divisorsOk o) :
    firstFailing (solveChecks Config.standard f.toNat o) = p.verdict o := by
  obtain ⟨hpfd, -, -, -, hmod0, hfrac0, -, hfrac, hb, hbsc⟩ := plan_values hp
  obtain ⟨hr, hpfd0, hspacing, hgcd⟩ := hdiv
  have hgcd0 : ¬(o.gcdEn = 1 ∧ Nat.gcd p.mod0 p.frac0 = 0) := fun ⟨hen, hzero⟩ =>
    hgcd hen (Nat.gcd_eq_zero_iff.mp hzero).1
  rw [firstFailing_solveChecks_dropLast (by decide), solveChecks_standard, hpfd, hmod0, hfrac0, hfrac, hb, hbsc]
  simp only [List.dropLast, firstFailing, Plan.verdict, beq_iff_eq, Bool.and_eq_true, decide_eq_true_eq, bne_iff_ne,
    and_assoc, hr, hpfd0, hspacing, hgcd0, if_false]

/-- Past step 7 the verdict is that of the band-select divider and its clock (R145). -/
theorem Plan.verdict_of_legal (hlegal : p.legal o) :
    p.verdict o = if p.b = 0 then some (.divideByZero .bandSelectDivider)
      else if 500000 < p.bscHz then some (.bandSelectClockTooHigh p.bscHz) else none := by
  obtain ⟨hfrac, hint, hmode⟩ := hlegal
  rw [Plan.verdict, if_neg hfrac, if_neg hint, if_neg hmode]

/-- The code that each branch of the verdict leaves (`60_exceptions.md` R221). -/
theorem Plan.verdict_code (p : Plan) (o : Options) :
    (verdictStatus (p.verdict o)).code =
      if 32000000 < p.pfd ∧ p.frac ≠ 0 then 1
      else if 90000000 < p.pfd ∧ p.frac = 0 ∧ o.variant = 1 then 2
      else if p.frac = 0 ∧ o.variant = 1 ∧ o.bscMode = 0 ∧ 32000000 < p.pfd then 3
      else if p.b = 0 then 9
      else if 500000 < p.bscHz then 4
      else 0 := by
  simp only [Plan.verdict, apply_ite verdictStatus, apply_ite Status.code]
  rfl

/-- Which of the three legality checks is reported: the second excludes the first by FRAC, and comes before the third
above 90 MHz (R140 to R142). -/
theorem Plan.verdict_code_legality (p : Plan) (o : Options) :
    ((verdictStatus (p.verdict o)).code = 1 ↔ 32000000 < p.pfd ∧ p.frac ≠ 0) ∧
      ((verdictStatus (p.verdict o)).code = 2 ↔ 90000000 < p.pfd ∧ p.frac = 0 ∧ o.variant = 1) ∧
      ((verdictStatus (p.verdict o)).code = 3 ↔
        p.frac = 0 ∧ o.variant = 1 ∧ o.bscMode = 0 ∧ 32000000 < p.pfd ∧ p.pfd ≤ 90000000) := by
  rw [Plan.verdict_code]
  refine ⟨?first, ?second, ?third⟩
  case first => split_ifs <;> simp_all
  case second => split_ifs <;> simp_all
  case third => split_ifs <;> simp_all

/-- The PFD frequency of a plan, and so its band-select clock, fits the payload of `STATUS` (R149). -/
theorem Plan.payload_lt (hp : p.Of f.toNat o) : p.pfd < 2 ^ 70 ∧ p.bscHz < 2 ^ 70 := by
  obtain ⟨hpfd, -⟩ := plan_values hp
  have hlt : p.pfd < 2 ^ 70 := hpfd ▸ pfd_lt standard_ok o.refHz.isLt
  exact ⟨hlt, hp.bscHz ▸ (Nat.div_le_self _ _).trans_lt hlt⟩

end Verdict

/-- Only the error of the tenth check has code 5 (`60_exceptions.md` R221). -/
theorem eq_variant_of_code_five {e : BlockError} (h : (errorStatus e).code = 5) :
    ∃ n, e = .bandSelectClockTooHighForVariant n := by
  cases e with
  | bandSelectClockTooHighForVariant n => exact ⟨n, rfl⟩
  | _ => simp [errorStatus] at h

/-! ### The output divider (R132) -/

/-- The search of step 2 stops at the last exponent, or at one whose threshold the frequency has reached. -/
theorem outDivExp_reached (c : Config) (f : Nat) :
    outDivExp c f = c.outdivMaxExp ∨ c.vcoMaxHz / 2 ^ outDivExp c f ≤ f := by
  unfold outDivExp
  cases h : (List.range (c.outdivMaxExp + 1)).find? fun n => c.vcoMaxHz / 2 ^ n ≤ f with
  | none => exact .inl rfl
  | some n => exact .inr (of_decide_eq_true (List.find?_range_eq_some.mp h).1)

/-- The search goes no further than an exponent whose threshold the frequency has reached. -/
theorem outDivExp_le_of_reached {c : Config} {f n : Nat} (h : c.vcoMaxHz / 2 ^ n ≤ f) : outDivExp c f ≤ n := by
  by_contra! hlt
  unfold outDivExp at hlt
  cases hfind : (List.range (c.outdivMaxExp + 1)).find? fun n => c.vcoMaxHz / 2 ^ n ≤ f with
  | none =>
    rw [hfind] at hlt
    simpa [h] using List.find?_range_eq_none.mp hfind n (hlt.trans (Nat.lt_succ_self _))
  | some m =>
    rw [hfind] at hlt
    obtain ⟨-, -, hmiss⟩ := List.find?_range_eq_some.mp hfind
    simpa [h] using hmiss n hlt

/-- A higher frequency has reached every threshold that a lower one has (R151 item 3). -/
theorem outDivExp_antitone (c : Config) {f g : Nat} (h : f ≤ g) : outDivExp c g ≤ outDivExp c f := by
  obtain hlast | hreached := outDivExp_reached c f
  · exact hlast ▸ outDivExp_le c g
  · exact outDivExp_le_of_reached (hreached.trans h)

/-! ### The reduction (R138) -/

/-- A pair without a common divisor stays as it is. -/
theorem reduce_of_coprime {m n : Nat} (h : Nat.Coprime m n) : reduce (m, n) = (m, n) := by
  simp [reduce, h.gcd_eq_one]

/-- The reduced pair has no common divisor. -/
theorem coprime_reduce {m n : Nat} (h : Nat.gcd m n ≠ 0) : Nat.Coprime (reduce (m, n)).1 (reduce (m, n)).2 :=
  Nat.coprime_div_gcd_div_gcd (Nat.pos_of_ne_zero h)

/-- The common divisor divides FRAC, so it leaves it 0 only where it was. -/
theorem reduce_snd_eq_zero_iff {m n : Nat} : (reduce (m, n)).2 = 0 ↔ n = 0 :=
  ⟨Nat.eq_zero_of_dvd_of_div_eq_zero (Nat.gcd_dvd_right m n), fun hn => by simp [reduce, hn]⟩

/-! ### How large the scaled values are (R149) -/

theorem twoIf_le (p : Bit) : twoIf p ≤ 2 := by unfold twoIf; split <;> decide

/-- Both forms of step 3 are a quotient of at most the multiplied frequency. -/
theorem n1000_le (c : Config) (f : Nat) (o : Options) : n1000 c f o ≤ f * outDiv c f * c.nScale := by
  unfold n1000
  split
  · exact Nat.div_le_self _ _
  · exact (Nat.div_le_self _ _).trans (Nat.mul_le_mul_right _ (Nat.le_mul_of_pos_right f (Nat.two_pow_pos _)))

/-- The product of step 3 fits 80 bits, because the divider is at most 64. -/
theorem scaledFrequency_lt (f : Hz) : f.toNat * outDiv Config.standard f.toNat * 1000 < 2 ^ 80 := by
  have hdiv : outDiv Config.standard f.toNat ≤ 64 := outDiv_le Config.standard _
  calc f.toNat * outDiv Config.standard f.toNat * 1000 ≤ f.toNat * 64 * 1000 :=
        Nat.mul_le_mul_right _ (Nat.mul_le_mul_left _ hdiv)
    _ < 2 ^ 80 := by have hf := f.isLt; omega

/-! ### The derived band-select divider (R144, R145) -/

/-- Under the stated values a derived divider counts the eighths of a megahertz, up to 255. -/
theorem bscDiv_standard {o : Options} (hin : o.bscDivIn = 0) (hmode : o.bscMode = 0) :
    bscDiv Config.standard o = min (8 * pfd o / 1000000) 255 :=
  bscDiv_derived Config.standard hin hmode

/-- The floored clock is at most 500 kHz exactly when the PFD frequency is below 500001 dividers. -/
theorem bscHz_le_iff {o : Options} (hb : bscDiv Config.standard o ≠ 0) :
    bscHz Config.standard o ≤ 500000 ↔ pfd o < 500001 * bscDiv Config.standard o :=
  Nat.lt_succ_iff.symm.trans (Nat.div_lt_iff_lt_mul (Nat.pos_of_ne_zero hb))

/-! ### What `SOLVE` reads (R155) -/

/-- The ten Options ports that R130 lists for `SOLVE`, the others undriven. -/
def solverPorts (o : Options) : Options :=
  { Options.undriven with
    refHz := o.refHz, refDbl := o.refDbl, refHalf := o.refHalf, rCounter := o.rCounter, fbSel := o.fbSel,
    spacingHz := o.spacingHz, gcdEn := o.gcdEn, variant := o.variant, bscMode := o.bscMode, bscDivIn := o.bscDivIn }

/-- The checks read no other port. -/
theorem solveChecks_solverPorts (c : Config) (f : Nat) (o : Options) :
    solveChecks c f (solverPorts o) = solveChecks c f o := rfl

/-- The answer reads no other port. -/
theorem solve_solverPorts (c : Config) (f : Hz) (o : Options) : solve c f (solverPorts o) = solve c f o := rfl

/-- What the host sees after `SOLVE` besides the words, from `freq_hz` and the ten ports. -/
theorem exec_solve_of_solverPorts {a b s t : State} (hf : a.freqHz = b.freqHz)
    (hports : solverPorts a.opt = solverPorts b.opt) (hs : exec .solve a = .next s) (ht : exec .solve b = .next t) :
    settingsPort s = settingsPort t ∧ s.setValid = t.setValid ∧ s.regValid = t.regValid ∧ s.status = t.status := by
  have hanswer : solve Config.standard a.freqHz a.opt = solve Config.standard b.freqHz b.opt := by
    rw [← solve_solverPorts _ _ a.opt, hports, solve_solverPorts, hf]
  have hchecks :
      solveChecks Config.standard a.freqHz.toNat a.opt = solveChecks Config.standard b.freqHz.toNat b.opt := by
    rw [← solveChecks_solverPorts _ _ a.opt, hports, solveChecks_solverPorts, hf]
  obtain ⟨hvalid, hreg, hstatus⟩ := exec_solve_verdict hs
  obtain ⟨hvalid', hreg', hstatus'⟩ := exec_solve_verdict ht
  refine ⟨?_, ?_, hreg.trans hreg'.symm, ?_⟩
  · rw [settingsPort_of_exec_solve hs, settingsPort_of_exec_solve ht, hanswer]
  · rw [hvalid, hvalid', hchecks]
  · rw [hstatus, hstatus', hchecks]

/-! ### A MOD that `SOLVE` accepts and `PACK` does not (R152) -/

/-- Options of R152: 1 kHz steps from a 25 MHz reference, without reduction. -/
def fineSteps : Options := { Options.undriven with refHz := 25000000, spacingHz := 1000, rCounter := 1 }

/-! ### The statements -/

/-- Settles O3: with every check passed `SET` holds the solved values, and no field cuts a bit off. -/
theorem solveSucceeds : Obligations.SolveSucceeds := by
  intro s p hp hdiv hlegal hb hclock
  have hpass : firstFailing (solveChecks Config.standard s.freqHz.toNat s.opt) = none := by
    rw [firstFailing_solveChecks hp hdiv, Plan.verdict_of_legal hlegal, if_neg hb, if_neg (Nat.not_lt.mpr hclock)]
  obtain ⟨-, hd, -, hint, -, -, hmod, hfrac, hbsc, -⟩ := plan_values hp
  refine ⟨_, exec_solve_of_pass hpass, solve_done _ s, ?_⟩
  rw [← hint, ← hfrac, ← hmod, ← hd, ← hbsc]
  exact solved_toNat standard_ok s.freqHz.isLt s.opt.refHz.isLt

/-- Settles O5: each clause is a branch of the verdict, and the codes of the branches differ. -/
theorem solveRejectsIllegalPfd : Obligations.SolveRejectsIllegalPfd := by
  intro s p hp hdiv
  have hverdict := firstFailing_solveChecks hp hdiv
  have hpayload : (BitVec.ofNat 70 p.pfd).toNat = p.pfd := toNat_ofNat_of_lt (Plan.payload_lt hp).1
  refine ⟨fun hpfd hfrac => ?frac, fun hpfd hfrac hfull => ?int, fun hfrac hfull hlow hpfd hmax => ?mode, ?codes⟩
  case frac =>
    exact exec_solve_failed (hverdict.trans (if_pos ⟨hpfd, hfrac⟩)) ⟨rfl, rfl, hpayload, rfl⟩
  case int =>
    have hraise : p.verdict s.opt = some (.intModeExceedsMaxPfd p.pfd) := by simp [Plan.verdict, hpfd, hfrac, hfull]
    exact exec_solve_failed (hverdict.trans hraise) ⟨rfl, rfl, hpayload, rfl⟩
  case mode =>
    have hraise : p.verdict s.opt = some (.bandSelectModeRequiresHigh p.pfd) := by
      simp [Plan.verdict, hpfd, hfrac, hfull, hlow, Nat.not_lt.mpr hmax]
    exact exec_solve_failed (hverdict.trans hraise) ⟨rfl, rfl, hpayload, rfl⟩
  case codes =>
    obtain ⟨t, ht, -⟩ := exec_solve_writes s
    obtain ⟨-, -, hstatus⟩ := exec_solve_verdict ht
    rw [hverdict] at hstatus
    exact ⟨t, ht, hstatus ▸ Plan.verdict_code_legality p s.opt⟩

/-- Settles O6: past step 7 the divider and the clock decide. -/
theorem solveRejectsFastBandSelectClock : Obligations.SolveRejectsFastBandSelectClock := by
  intro s p hp hdiv hlegal
  have hverdict := (firstFailing_solveChecks hp hdiv).trans (Plan.verdict_of_legal hlegal)
  refine ⟨fun hb => ?divider, fun hb hclock => ?clock, fun hb hclock => ?pass⟩
  case divider =>
    rw [if_pos hb] at hverdict
    exact exec_solve_failed hverdict ⟨rfl, rfl, rfl, rfl⟩
  case clock =>
    rw [if_neg hb, if_pos hclock] at hverdict
    exact exec_solve_failed hverdict ⟨rfl, rfl, toNat_ofNat_of_lt (Plan.payload_lt hp).2, rfl⟩
  case pass =>
    rw [if_neg hb, if_neg (Nat.not_lt.mpr hclock)] at hverdict
    exact ⟨_, exec_solve_of_pass hverdict, rfl, rfl, rfl, rfl⟩

/-- Settles O7: the error is that of the tenth check only, which is never the first to fail. -/
theorem variantClockCheckIsDead : Obligations.VariantClockCheckIsDead := by
  have hdead : ∀ (c : Config) (f : Hz) (o : Options) (n : Nat), c.bscMaxHz ≤ c.bscVariantMaxHz →
      solve c f o ≠ .error (.bandSelectClockTooHighForVariant n) := by
    intro c f o n hord h
    simpa [solveChecks] using solve_error_mem_dropLast hord h
  refine ⟨hdead, fun s t h hcode => ?_⟩
  obtain ⟨v, -, he⟩ | ⟨e, herr, he⟩ := execSolve_cases s
  · obtain rfl : writeOk (writeSettings v s) = t := Host.Outcome.next.inj (he.symm.trans h)
    simp [Status.ok] at hcode
  · obtain rfl : raise .solve e s = t := Host.Outcome.next.inj (he.symm.trans h)
    obtain ⟨n, rfl⟩ := eq_variant_of_code_five hcode
    exact hdead _ _ _ n (by decide) herr

/-- Settles O8: the table of thresholds, and the exponent of the divider never rises. -/
theorem outputDividerThresholds : Obligations.OutputDividerThresholds :=
  ⟨outDiv_standard, fun c _ _ h => Nat.pow_le_pow_right (by decide) (outDivExp_antitone c h)⟩

/-- Settles O10, row by row of the table of R149. -/
theorem solverValuesStayInBounds : Obligations.SolverValuesStayInBounds := by
  intro f o
  have href : o.refHz.toNat ≤ 2 ^ 64 - 1 := Nat.le_sub_one_of_lt o.refHz.isLt
  have hscaled : o.refHz.toNat * twoIf o.refDbl ≤ 2 * (2 ^ 64 - 1) := by
    rw [Nat.mul_comm]
    exact Nat.mul_le_mul (twoIf_le _) href
  have hpfd : pfd o ≤ 2 * (2 ^ 64 - 1) := (pfd_le o).trans (by omega)
  have hmod0 : mod0 o ≤ 2 ^ 64 - 1 := (mod0_le o).trans href
  obtain ⟨hreducedMod, hfrac⟩ := reduced_le Config.standard f.toNat o
  refine ⟨hscaled, hpfd, scaledFrequency_lt f, (n1000_le _ _ _).trans_lt (scaledFrequency_lt f), ?int, hmod0,
    hreducedMod.trans hmod0, ?mod, ?product, ?frac0, hfrac, by omega, ?divider, Nat.div_le_self _ _⟩
  case int =>
    calc intPart Config.standard f.toNat o ≤ f.toNat * outDiv Config.standard f.toNat := intPart_le _ _ _
      _ ≤ (2 ^ 64 - 1) * 64 := Nat.mul_le_mul (Nat.le_sub_one_of_lt f.isLt) (outDiv_le Config.standard _)
      _ = 64 * (2 ^ 64 - 1) := Nat.mul_comm _ _
  case mod => exact Nat.le_sub_one_of_lt (modOut_lt standard_ok o.refHz.isLt)
  case product => exact Nat.mul_le_mul (Nat.le_of_lt_succ (Nat.mod_lt _ (by decide))) hmod0
  case frac0 =>
    obtain hzero | hpos := Nat.eq_zero_or_pos (mod0 o)
    · exact .inr (Nat.le_zero.mp (hzero ▸ frac0_le Config.standard standard_ok.nScale f.toNat o))
    · exact .inl (frac0_lt_mod0 standard_ok.nScale _ hpos)
  case divider => exact Nat.le_of_lt_succ (bscDiv_lt Config.standard le_rfl o)

/-- Settles O12: below the cap the divider follows the PFD frequency, and at the cap the clock is a quotient by 255. -/
theorem derivedDividerKeepsClockLegal : Obligations.DerivedDividerKeepsClockLegal := by
  intro o hin hmode
  have hdiv := bscDiv_standard hin hmode
  refine ⟨fun hlow hhigh => ?_, fun hcap => ?_⟩
  · have hb : bscDiv Config.standard o ≠ 0 := by omega
    exact ⟨hb, (bscHz_le_iff hb).mpr (by omega)⟩
  · have hb : bscDiv Config.standard o = 255 := by omega
    have hle := bscHz_le_iff (o := o) (by omega)
    rw [hb] at hle
    exact ⟨hb, by omega⟩

/-- Settles O14: the solver answers alike on alike ports, and what the host sees of `SOLVE` is that answer. -/
theorem solveReadsOnlyItsPorts : Obligations.SolveReadsOnlyItsPorts := by
  intro a b s t hf href hdbl hhalf hr hfb hspacing hgcd hvariant hmode hin hs ht
  have hports : solverPorts a.opt = solverPorts b.opt := by
    simp only [solverPorts, href, hdbl, hhalf, hr, hfb, hspacing, hgcd, hvariant, hmode, hin]
  exact exec_solve_of_solverPorts hf hports hs ht

/-- Settles O9: a reduced pair has no common divisor left. -/
theorem reductionIsIdempotent : Obligations.ReductionIsIdempotent :=
  fun _ _ h => ⟨reduce_of_coprime (coprime_reduce h), reduce_snd_eq_zero_iff⟩

/-- Settles O11: on these steps the product is a whole number of megahertz, which every rounding keeps. -/
theorem roundingsAgreeOnWholeSteps : Obligations.RoundingsAgreeOnWholeSteps := by
  intro c k hscale
  simp only [bscScale, hscale]
  omega

/-- Settles O42, by the example of R152: `SOLVE` leaves MOD at 25000, which is above 4095. -/
theorem solveDoesNotPromisePack : Obligations.SolveDoesNotPromisePack :=
  ⟨{ State.reset with freqHz := 2400000000, opt := fineSteps }, _, _, rfl, by decide, rfl, by decide⟩

end Sys2Proof.Machine

/-! Proofs about the LUT encoder (`42_lut_encoder.md` R170 to R178): which index a table without repeated entries gives
its entries, and which dividers have a select. -/

namespace Sys2Proof.Machine

/-! ### The search in a table (R170, R177) -/

/-- Without repeated entries no earlier entry is equal, so the search from entry 0 stops at the entry itself. -/
theorem lookup_eq_some_of_nodup {α : Type} [DecidableEq α] {T : List α} {v : α} {i : Nat} (hT : T.Nodup)
    (hi : T[i]? = some v) : lookup T v = some i := by
  obtain ⟨hlt, -⟩ := List.getElem?_eq_some_iff.mp hi
  refine lookup_some.mpr ⟨hi, fun j hj heq => ?_⟩
  have hij : i = j := (List.getElem?_inj hlt hT).mp (hi.trans heq.symm)
  omega

/-! ### The output-divider select (R175, R178) -/

/-- The exact logarithm of an 8-bit number: the exponents 0 to 7 are all there are, since the number is below `2^8`. -/
theorem log2Exact_eq_some_iff {d : BitVec 8} {n : Nat} : log2Exact d = some n ↔ d.toNat = 2 ^ n := by
  simp only [log2Exact, List.find?_range_eq_some, List.mem_range, beq_iff_eq, Bool.not_eq_true', beq_eq_false_iff_ne]
  constructor
  · rintro ⟨h, -⟩
    exact h.symm
  · intro h
    have hn : n < 8 := (Nat.pow_lt_pow_iff_right (by decide)).mp (h ▸ d.isLt)
    refine ⟨h.symm, hn, fun j hj heq => ?_⟩
    have hjn : j = n := Nat.pow_right_injective le_rfl (heq.trans h)
    omega

/-- Under every configuration the select is the exact logarithm, up to the highest select. -/
theorem outDivSel_eq_some_iff {c : Config} {d : BitVec 8} {n : Nat} :
    outDivSel c d = some n ↔ n ≤ c.outdivSelMax ∧ d.toNat = 2 ^ n := by
  simp only [outDivSel, Option.filter_eq_some_iff, log2Exact_eq_some_iff, decide_eq_true_eq, and_comm]

/-! ### The statements -/

/-- Settles O47: the first equal entry is the only one when no entry repeats, and a hit is always an equal entry. -/
theorem lookupFindsExactlyTheEntries : Obligations.LookupFindsExactlyTheEntries :=
  fun _ _ _ => ⟨lookup_eq_some_of_nodup, fun h => (lookup_some.mp h).1⟩

/-- Settles O48: the highest select of the stated configuration is 6. -/
theorem outputDividerSelect : Obligations.OutputDividerSelect := fun _ _ => outDivSel_eq_some_iff

/-- Settles O49, field by field of the stated values. -/
theorem standardConfigurationIsSound : Obligations.StandardConfigurationIsSound := standard_ok

end Sys2Proof.Machine

/-! Proofs about the packer (`43_packer.md` R185 to R208): which check of `PACK` is reported, what the words hold, what
unpacking gives back, and what each word and the whole command depend on. -/

namespace Sys2Proof.Machine

/-! ### The verdict of the checks (R186 to R195) -/

/-- The error that the lookups and the output-divider select report first (R190 to R194). -/
def lookupVerdict (o : Options) (v : Settings) : Option BlockError :=
  if o.cpCurrent.toNat ∉ Config.standard.cpTable then
    some (.lookupValueNotFound .chargePumpCurrent o.cpCurrent.toNat)
  else if o.abpWidth.toNat ∉ Config.standard.abpTable then
    some (.lookupValueNotFound .antiBacklashWidth o.abpWidth.toNat)
  else if o.outPwr.toInt ∉ Config.standard.pwrTable then some (.lookupValueNotFound .outputPower o.outPwr.toNat)
  else if o.auxPwr.toInt ∉ Config.standard.pwrTable then some (.lookupValueNotFound .auxOutputPower o.auxPwr.toNat)
  else if outDivSel Config.standard v.outdiv = none then some .invalidOutputDividerSelect
  else none

/-- The error that `PACK` reports first when `SET` is valid: the range checks come before the lookups (R187 to R195). -/
def packVerdict (o : Options) (v : Settings) : Option BlockError :=
  if 65535 < v.int.toNat then some (.fieldOutOfRange .int v.int.toNat 65535)
  else if 4095 < v.frac.toNat then some (.fieldOutOfRange .frac v.frac.toNat 4095)
  else if 4095 < v.mod.toNat then some (.fieldOutOfRange .mod v.mod.toNat 4095)
  else lookupVerdict o v

/-- With `SET` valid, the first failing check of the nine is the verdict. -/
theorem firstFailing_packChecks (o : Options) (v : Settings) :
    firstFailing (packChecks Config.standard o true v) = packVerdict o v := by
  rw [packChecks_standard]
  simp only [firstFailing, lutCp, lutAbp, lutPwr, dBm, Option.isNone_iff_eq_none, lookup_none, decide_eq_true_eq,
    Bool.not_true, Bool.false_eq_true, if_false, packVerdict, lookupVerdict]

/-- With `SET` in range, the lookups and the divider decide. -/
theorem packVerdict_of_inRange {s : State} (hs : s.inRange) :
    packVerdict s.opt s.settings = lookupVerdict s.opt s.settings := by
  obtain ⟨-, hint, hfrac, hmod⟩ := hs
  rw [packVerdict, if_neg (Nat.not_lt.mpr hint), if_neg (Nat.not_lt.mpr hfrac), if_neg (Nat.not_lt.mpr hmod)]

/-- No lookup leaves the number of a range check in `STATUS.field` (`60_exceptions.md` R222). -/
theorem lookupVerdict_field (o : Options) (v : Settings) :
    (verdictStatus (lookupVerdict o v)).field ≠ 1 ∧ (verdictStatus (lookupVerdict o v)).field ≠ 2 ∧
      (verdictStatus (lookupVerdict o v)).field ≠ 3 := by
  unfold lookupVerdict
  split_ifs <;> simp [verdictStatus, errorStatus, lookupFieldNumber, Status.ok]

/-- Which range check is reported, by its number in `STATUS.field` (R222). -/
theorem packVerdict_field (o : Options) (v : Settings) :
    ((verdictStatus (packVerdict o v)).field = 1 ↔ 65535 < v.int.toNat) ∧
      ((verdictStatus (packVerdict o v)).field = 2 ↔ v.int.toNat ≤ 65535 ∧ 4095 < v.frac.toNat) ∧
      ((verdictStatus (packVerdict o v)).field = 3 ↔
        v.int.toNat ≤ 65535 ∧ v.frac.toNat ≤ 4095 ∧ 4095 < v.mod.toNat) := by
  unfold packVerdict
  split_ifs with hint hfrac hmod
  · simp [verdictStatus, errorStatus, rangeFieldNumber, hint]
  · simp [verdictStatus, errorStatus, rangeFieldNumber, hfrac, Nat.not_lt.mp hint]
  · simp [verdictStatus, errorStatus, rangeFieldNumber, hmod, Nat.not_lt.mp hint, Nat.not_lt.mp hfrac]
  · obtain ⟨h1, h2, h3⟩ := lookupVerdict_field o v
    simp only [h1, h2, h3, hint, hfrac, hmod, and_false, and_self]

/-! ### How `PACK` ends (R205, R206) -/

/-- A pack that succeeds writes its words. -/
theorem exec_pack_of_ok {s : State} {ws : Words}
    (h : pack Config.standard s.opt s.setValid s.settings = .ok ws) :
    exec .pack s = .next (writeOk (writeWords ws s)) := by
  simp only [exec, execPack, packWith, h]

/-- A pack that fails raises its error. -/
theorem exec_pack_of_error {s : State} {e : BlockError}
    (h : pack Config.standard s.opt s.setValid s.settings = .error e) :
    exec .pack s = .next (raise .pack e s) := by
  simp only [exec, execPack, packWith, h]

/-- A failed range check shows the register and its limit (R187 to R189). -/
theorem range_reads {n max : Nat} (which : RangeField) (x : BitVec n) (hn : n ≤ 70) (hmax : max < 2 ^ 16) :
    (errorStatus (.fieldOutOfRange which x.toNat max)).reads 6 (rangeFieldNumber which).toNat x.toNat max :=
  ⟨rfl, rfl, toNat_ofNat_of_lt (lt_two_pow_mono x.isLt hn), toNat_ofNat_of_lt hmax⟩

/-- A miss shows the port as driven (R176). -/
theorem lookup_reads {n : Nat} (which : LookupField) (p : BitVec n) (hn : n ≤ 70) :
    (errorStatus (.lookupValueNotFound which p.toNat)).reads 7 (lookupFieldNumber which).toNat p.toNat 0 :=
  ⟨rfl, rfl, toNat_ofNat_of_lt (lt_two_pow_mono p.isLt hn), rfl⟩

/-- A reported error ends `PACK` with its reading of `STATUS`, in the row of a failed `PACK`. -/
theorem exec_pack_failed {s : State} {e : BlockError} {code field value max : Nat} (hv : s.setValid = true)
    (h : packVerdict s.opt s.settings = some e) (hreads : (errorStatus e).reads code field value max) :
    ∃ t, exec .pack s = .next t ∧ PackFailed s t ∧ t.status.reads code field value max := by
  have herr : pack Config.standard s.opt s.setValid s.settings = .error e := by
    rw [hv, pack_error, firstFailing_packChecks, h]
  exact ⟨raise .pack e s, exec_pack_of_error herr, raise_pack_failed e s, hreads⟩

/-- `STATUS` after `PACK` follows the verdict of its checks. -/
theorem exec_pack_status {s t : State} (hv : s.setValid = true) (h : exec .pack s = .next t) :
    t.status = verdictStatus (packVerdict s.opt s.settings) := by
  rw [← firstFailing_packChecks, ← hv]
  obtain ⟨ws, hok, he⟩ | ⟨e, herr, he⟩ := execPack_cases s
  · obtain rfl : writeOk (writeWords ws s) = t := Host.Outcome.next.inj (he.symm.trans h)
    rw [firstFailing_none.mpr (pack_ok.mp hok).1]
    rfl
  · obtain rfl : raise .pack e s = t := Host.Outcome.next.inj (he.symm.trans h)
    rw [pack_error.mp herr]
    rfl

/-- A `PACK` that leaves `REG_VALID` 1 has written the words of a pack that succeeded. -/
theorem exec_pack_valid {s t : State} (h : exec .pack s = .next t) (hv : t.regValid = true) :
    pack Config.standard s.opt s.setValid s.settings = .ok t.words :=
  execWith_pack_valid (exec_eq .pack s ▸ h) hv

/-- Table inputs that are entries are hits at these indices, since no table repeats an entry. -/
theorem lut_of_hits {o : Options} {cp abp pw ax : Nat} (h : o.hits cp abp pw ax) :
    lutCp Config.standard o.cpCurrent = some cp ∧ lutAbp Config.standard o.abpWidth = some abp ∧
      lutPwr Config.standard o.outPwr = some pw ∧ lutPwr Config.standard o.auxPwr = some ax := by
  obtain ⟨hcp, habp, hpw, hax⟩ := h
  exact ⟨lookup_eq_some_of_nodup (by decide) hcp, lookup_eq_some_of_nodup (by decide) habp,
    lookup_eq_some_of_nodup (by decide) hpw, lookup_eq_some_of_nodup (by decide) hax⟩

/-! ### The words as numbers (R196 to R203) -/

theorem b_bne_zero {n : Nat} (x : BitVec n) : b (x != 0#n) = if x = 0 then 0 else 1 := by
  by_cases h : x = 0 <;> simp [b, h]

theorem b_beq_zero {n : Nat} (x : BitVec n) : b (x == 0#n) = if x = 0 then 1 else 0 := by
  by_cases h : x = 0 <;> simp [b, h]

/-- `ABP_NDEF` is the index itself: the table has two entries and the default is the first (R200). -/
theorem b_abpNdef {abp : Nat} (h : abp < 2) : b (abp != Config.standard.abpDefaultIndex) = abp := by
  interval_cases abp <;> rfl

/-! ### The words as encodings of their fields (R83 to R88, R207) -/

/-- What the words of a pack hold, field by field: the operands, the three flags, the five table indices, and on
`LEGACY` zeros in the extra fields of word 3. -/
def packedFields (o : Options) (v : Settings) (cp abp pw ax sel : Nat) : Unpacked where
  int := v.int.setWidth 16
  frac := v.frac.setWidth 12
  phaseNz := if o.phase = 0 then 0 else 1
  presc89 := o.presc89
  phaseZ := if o.phase = 0 then 1 else 0
  mod := v.mod.setWidth 12
  noiseMode := o.noiseMode
  muxout := o.muxout
  refDbl := o.refDbl
  refHalf := o.refHalf
  rCounter := o.rCounter
  dblBuf := o.dblBuf
  cpIdx := BitVec.ofNat 4 cp
  fracNz := if v.frac = 0 then 0 else 1
  abpNdef := BitVec.ofNat 1 abp
  pdPol := o.pdPol
  pwrDn := o.pwrDn
  cpTri := o.cpTri
  cntRst := o.cntRst
  bscMode := if o.variant = 1#1 then o.bscMode else 0#1
  abpIdx := if o.variant = 1#1 then BitVec.ofNat 1 abp else 0#1
  chgCancel := if o.variant = 1#1 then o.chgCancel else 0#1
  csr := o.csr
  clkdivMode := o.clkdivMode
  clkdivVal := o.clkdivVal
  fbSel := o.fbSel
  outdivSel := BitVec.ofNat 3 sel
  bscDiv := v.bscdiv
  vcoPd := o.vcoPd
  mtld := o.mtld
  auxSel := o.auxSel
  auxEn := o.auxEn
  auxPwr := BitVec.ofNat 2 ax
  outEn := o.outEn
  outPwr := BitVec.ofNat 2 pw
  ldPin := o.ldPin

/-- The six words as the formats of the encoder, word 3 as `R3_FULL` (R83 to R88). -/
def encodeFields (u : Unpacked) : Words where
  w0 := encodeR0 u.int u.frac
  w1 := encodeR1 u.phaseNz u.presc89 u.phaseZ u.mod
  w2 := encodeR2 u.noiseMode u.muxout u.refDbl u.refHalf u.rCounter u.dblBuf u.cpIdx u.fracNz u.abpNdef u.pdPol
    u.pwrDn u.cpTri u.cntRst
  w3 := encodeR3Full u.bscMode u.abpIdx u.chgCancel u.csr u.clkdivMode u.clkdivVal
  w4 := encodeR4 u.fbSel u.outdivSel u.bscDiv u.vcoPd u.mtld u.auxSel u.auxEn u.auxPwr u.outEn u.outPwr
  w5 := encodeR5 u.ldPin

/-- An encoded word decodes to its row on `FULL`, where word 3 is always read as `R3_FULL` (R92). -/
theorem decodeWord_of_encode {i : Instr} {w : Word} (hi : i.formatOk 1 = true) (h : encode i = wordBytes w) :
    decodeWord 1 w = .ok i := by
  rw [← decode_wordBytes, ← h]
  exact decodeOfEncode 1 i hi

/-- Slicing the encoded words gives back the fields. -/
theorem unpack_encodeFields (u : Unpacked) : unpack (encodeFields u) = u := by
  have h0 := decodeWord_of_encode (w := (encodeFields u).w0) (i := .r0 _ _) rfl rfl
  have h1 := decodeWord_of_encode (w := (encodeFields u).w1) (i := .r1 _ _ _ _) rfl rfl
  have h2 := decodeWord_of_encode (w := (encodeFields u).w2) (i := .r2 _ _ _ _ _ _ _ _ _ _ _ _ _) rfl rfl
  have h3 := decodeWord_of_encode (w := (encodeFields u).w3) (i := .r3Full _ _ _ _ _ _) rfl rfl
  have h4 := decodeWord_of_encode (w := (encodeFields u).w4) (i := .r4 _ _ _ _ _ _ _ _ _ _) rfl rfl
  have h5 := decodeWord_of_encode (w := (encodeFields u).w5) (i := .r5 _) rfl rfl
  simp only [decodeWord_eq_ok_iff, reduceCtorEq, and_false, or_false, false_or, Instr.r0.injEq, Instr.r1.injEq,
    Instr.r2.injEq, Instr.r3Full.injEq, Instr.r4.injEq, Instr.r5.injEq] at h0 h1 h2 h3 h4 h5
  obtain ⟨-, -, h3⟩ := h3
  simp only [unpack, ← h0, ← h1, ← h2, ← h3, ← h4, ← h5]

theorem toNat_ite_zero_one (p : Prop) [Decidable p] : (if p then 0 else 1 : Bit).toNat = if p then 0 else 1 := by
  split <;> rfl

theorem toNat_ite_one_zero (p : Prop) [Decidable p] : (if p then 1 else 0 : Bit).toNat = if p then 1 else 0 := by
  split <;> rfl

/-- A register cut to a field that its number fits keeps the number. -/
theorem toNat_setWidth_of_lt {n k : Nat} {x : BitVec n} (h : x.toNat < 2 ^ k) : (x.setWidth k).toNat = x.toNat :=
  (BitVec.toNat_setWidth k x).trans (Nat.mod_eq_of_lt h)

/-- Six words are the same when they are as numbers. -/
theorem words_eq_of_toNat {ws us : Words} (h0 : ws.w0.toNat = us.w0.toNat) (h1 : ws.w1.toNat = us.w1.toNat)
    (h2 : ws.w2.toNat = us.w2.toNat) (h3 : ws.w3.toNat = us.w3.toNat) (h4 : ws.w4.toNat = us.w4.toNat)
    (h5 : ws.w5.toNat = us.w5.toNat) : ws = us := by
  cases ws
  cases us
  rw [Words.mk.injEq]
  exact ⟨BitVec.eq_of_toNat_eq h0, BitVec.eq_of_toNat_eq h1, BitVec.eq_of_toNat_eq h2, BitVec.eq_of_toNat_eq h3,
    BitVec.eq_of_toNat_eq h4, BitVec.eq_of_toNat_eq h5⟩

/-- The words that `PACK` composes are the encodings of their fields. -/
theorem compose_eq_encodeFields {o : Options} {v : Settings} {cp abp pw ax sel : Nat} (hi : v.int.toNat ≤ 65535)
    (hf : v.frac.toNat ≤ 4095) (hm : v.mod.toNat ≤ 4095) (hc : cp < 16) (ha : abp < 2) (hp : pw < 4) (hx : ax < 4)
    (hs : sel < 8) :
    compose Config.standard o v cp abp pw ax sel = encodeFields (packedFields o v cp abp pw ax sel) := by
  obtain ⟨e0, e1, e2, e3, e4, e5⟩ := compose_toNat (o := o) standard_ok.reserved.le hi hf hm hc ha hp hx hs
  have hint : (v.int.setWidth 16).toNat = v.int.toNat := toNat_setWidth_of_lt (by omega)
  have hfrac : (v.frac.setWidth 12).toNat = v.frac.toNat := toNat_setWidth_of_lt (by omega)
  have hmod : (v.mod.setWidth 12).toNat = v.mod.toNat := toNat_setWidth_of_lt (by omega)
  have hcp : (BitVec.ofNat 4 cp).toNat = cp := toNat_ofNat_of_lt hc
  have habp : (BitVec.ofNat 1 abp).toNat = abp := toNat_ofNat_of_lt ha
  have hpw : (BitVec.ofNat 2 pw).toNat = pw := toNat_ofNat_of_lt hp
  have hax : (BitVec.ofNat 2 ax).toNat = ax := toNat_ofNat_of_lt hx
  have hsel : (BitVec.ofNat 3 sel).toNat = sel := toNat_ofNat_of_lt hs
  refine words_eq_of_toNat ?w0 ?w1 ?w2 ?w3 ?w4 ?w5 <;> simp only [encodeFields]
  case w0 => rw [e0, word0_eq (by omega), encodeR0_toNat, packedFields, hint, hfrac]
  case w1 =>
    rw [e1, word1_eq (by omega), b_bne_zero, b_beq_zero, encodeR1_toNat, packedFields, toNat_ite_zero_one,
      toNat_ite_one_zero, hmod]
  case w2 =>
    rw [e2, word2_eq hc, b_bne_zero, b_abpNdef ha, encodeR2_toNat, packedFields, toNat_ite_zero_one, hcp, habp]
  case w3 =>
    rw [e3, word3_eq ha, encodeR3Full_toNat, packedFields]
    by_cases hv : o.variant = 1#1
    · simp only [if_pos hv, habp]
      omega
    · simp only [if_neg hv, BitVec.toNat_ofNat]
      omega
  case w4 => rw [e4, word4_eq hs hx hp, encodeR4_toNat, packedFields, hax, hpw, hsel]
  case w5 => exact e5.trans ((word5_eq le_rfl).trans (encodeR5_toNat _).symm)

/-! ### What `PACK` reads (R204, R208) -/

/-- `PACK` does not read the reference, the spacing, the reduction and the set divider (R185, R208). -/
theorem viewAfterPack_unread (o : Options) (refHz spacingHz : Hz) (gcdEn : Bit) (bscDivIn : BitVec 8)
    (port : Option Settings) :
    viewAfterPack { o with refHz := refHz, spacingHz := spacingHz, gcdEn := gcdEn, bscDivIn := bscDivIn } port =
      viewAfterPack o port := by
  cases port <;> rfl

/-- `REG_VALID` is 1 exactly while the host can see words (`40_commands.md` R117). -/
theorem regValid_eq_isSome (s : State) : s.regValid = (wordsPort s).isSome := by
  unfold wordsPort
  cases s.regValid <;> rfl

/-- The words of a successful `PACK`, composed from what the tables answer. -/
theorem words_of_exec_pack {s t : State} (h : exec .pack s = .next t) (hv : t.regValid = true) :
    t.words = compose Config.standard s.opt s.settings (hit (lutCp Config.standard s.opt.cpCurrent))
      (hit (lutAbp Config.standard s.opt.abpWidth)) (hit (lutPwr Config.standard s.opt.outPwr))
      (hit (lutPwr Config.standard s.opt.auxPwr)) (hit (outDivSel Config.standard s.settings.outdiv)) :=
  (pack_ok.mp (exec_pack_valid h hv)).2

/-! ### The statements -/

/-- Settles O15: every check passes, each composed word is the sum of its fields, and none is cut off. -/
theorem packWritesSixWords : Obligations.PackWritesSixWords := by
  intro s cp abp pw ax sel ⟨hvalid, hint, hfrac, hmod⟩ hhits hsel hdiv
  obtain ⟨hcp, habp, hpw, hax⟩ := lut_of_hits hhits
  have hselect : outDivSel Config.standard s.settings.outdiv = some sel := outDivSel_eq_some_iff.mpr ⟨hsel, hdiv⟩
  have hok := pack_standard_ok.mpr
    ⟨hvalid, hint, hfrac, hmod, cp, abp, pw, ax, sel, hcp, habp, hpw, hax, hselect, rfl⟩
  obtain ⟨lcp, labp, lpw, lax, lsel⟩ := hits_lt standard_ok hcp habp hpw hax hselect
  obtain ⟨e0, e1, e2, e3, e4, e5⟩ :=
    compose_toNat (o := s.opt) standard_ok.reserved.le hint hfrac hmod lcp labp lpw lax lsel
  refine ⟨_, exec_pack_of_ok hok, pack_done _ s, ?_⟩
  simp only [writeOk_words, writeWords_words]
  refine ⟨?w0, ?w1, ?w2, ?w3, ?w4, ?w5⟩
  case w0 => rw [e0, word0_eq (by omega)]
  case w1 => rw [e1, word1_eq (by omega), b_bne_zero, b_beq_zero]
  case w2 => rw [e2, word2_eq lcp, b_bne_zero, b_abpNdef labp]
  case w3 => exact e3.trans (word3_eq labp)
  case w4 => rw [e4, word4_eq lsel lax lpw]
  case w5 => exact e5.trans (word5_eq le_rfl)

/-- Settles O17: each clause is a branch of the verdict, and the fields of the branches differ. -/
theorem packRangeChecks : Obligations.PackRangeChecks := by
  intro s hv
  refine ⟨fun hint => ?int, fun hint hfrac => ?frac, fun hint hfrac hmod => ?mod, ?fields⟩
  case int =>
    have hraise : packVerdict s.opt s.settings = some (.fieldOutOfRange .int s.settings.int.toNat 65535) := if_pos hint
    exact exec_pack_failed hv hraise (range_reads _ s.settings.int (by decide) (by decide))
  case frac =>
    have hraise : packVerdict s.opt s.settings = some (.fieldOutOfRange .frac s.settings.frac.toNat 4095) := by
      rw [packVerdict, if_neg (Nat.not_lt.mpr hint), if_pos hfrac]
    exact exec_pack_failed hv hraise (range_reads _ s.settings.frac (by decide) (by decide))
  case mod =>
    have hraise : packVerdict s.opt s.settings = some (.fieldOutOfRange .mod s.settings.mod.toNat 4095) := by
      rw [packVerdict, if_neg (Nat.not_lt.mpr hint), if_neg (Nat.not_lt.mpr hfrac), if_pos hmod]
    exact exec_pack_failed hv hraise (range_reads _ s.settings.mod (by decide) (by decide))
  case fields =>
    obtain ⟨t, ht, -⟩ := exec_pack_writes s
    exact ⟨t, ht, exec_pack_status hv ht ▸ packVerdict_field s.opt s.settings⟩

/-- Settles O18: with `SET` in range each clause is a branch of the verdict of the lookups. -/
theorem packLookupMisses : Obligations.PackLookupMisses := by
  intro s hs
  have hverdict := packVerdict_of_inRange hs
  refine ⟨fun hcp => ?cp, fun hcp habp => ?abp, fun hcp habp hpw => ?pw, fun hcp habp hpw hax => ?ax⟩
  case cp =>
    have hraise : lookupVerdict s.opt s.settings =
        some (.lookupValueNotFound .chargePumpCurrent s.opt.cpCurrent.toNat) := if_pos hcp
    exact exec_pack_failed hs.1 (hverdict.trans hraise) (lookup_reads _ s.opt.cpCurrent (by decide))
  case abp =>
    have hraise : lookupVerdict s.opt s.settings =
        some (.lookupValueNotFound .antiBacklashWidth s.opt.abpWidth.toNat) := by
      rw [lookupVerdict, if_neg (not_not.mpr hcp), if_pos habp]
    exact exec_pack_failed hs.1 (hverdict.trans hraise) (lookup_reads _ s.opt.abpWidth (by decide))
  case pw =>
    have hraise : lookupVerdict s.opt s.settings = some (.lookupValueNotFound .outputPower s.opt.outPwr.toNat) := by
      rw [lookupVerdict, if_neg (not_not.mpr hcp), if_neg (not_not.mpr habp), if_pos hpw]
    exact exec_pack_failed hs.1 (hverdict.trans hraise) (lookup_reads _ s.opt.outPwr (by decide))
  case ax =>
    have hraise : lookupVerdict s.opt s.settings = some (.lookupValueNotFound .auxOutputPower s.opt.auxPwr.toNat) := by
      rw [lookupVerdict, if_neg (not_not.mpr hcp), if_neg (not_not.mpr habp), if_neg (not_not.mpr hpw), if_pos hax]
    exact exec_pack_failed hs.1 (hverdict.trans hraise) (lookup_reads _ s.opt.auxPwr (by decide))

/-- Settles O19: the four lookups hit, and the select has only the seven dividers. -/
theorem packRejectsOtherDividers : Obligations.PackRejectsOtherDividers := by
  intro s cp abp pw ax hs ⟨hcp, habp, hpw, hax⟩ hdiv
  have hmiss : outDivSel Config.standard s.settings.outdiv = none :=
    Option.eq_none_iff_forall_ne_some.mpr fun _ hsel => hdiv (mem_of_outDivSel_eq_some hsel)
  have hraise : lookupVerdict s.opt s.settings = some .invalidOutputDividerSelect := by
    rw [lookupVerdict, if_neg (not_not.mpr (List.mem_of_getElem? hcp)),
      if_neg (not_not.mpr (List.mem_of_getElem? habp)), if_neg (not_not.mpr (List.mem_of_getElem? hpw)),
      if_neg (not_not.mpr (List.mem_of_getElem? hax)), if_pos hmiss]
  exact exec_pack_failed hs.1 ((packVerdict_of_inRange hs).trans hraise) ⟨rfl, rfl, rfl, rfl⟩

/-- Settles O21, word by word: each is composed from the operands of its row. -/
theorem wordDependencies : Obligations.WordDependencies := by
  intro a b s t hs ht hsv htv
  rw [words_of_exec_pack hs hsv, words_of_exec_pack ht htv]
  refine ⟨?w0, ?w1, ?w2, ?w3, ?w4, ?w5⟩
  case w0 =>
    intro hint hfrac
    simp only [compose, word0, hint, hfrac]
  case w1 =>
    intro hphase hpresc hmod
    simp only [compose, word1, b_bne_zero, b_beq_zero, hphase, hpresc, hmod]
  case w2 =>
    intro hnoise hmux hdbl hhalf hr hbuf hcp hfrac habp hpol hdn htri hrst
    simp only [compose, word2, b_bne_zero, hnoise, hmux, hdbl, hhalf, hr, hbuf, hcp, hfrac, habp, hpol, hdn, htri, hrst]
  case w3 =>
    intro hcsr hmode hval hvariant hfull
    have hsame : (isFull a.opt = true) = (isFull b.opt = true) := by rw [isFull, isFull, hvariant]
    simp only [compose, word3, hcsr, hmode, hval]
    refine congrArg (fun extras => BitVec.ofNat 32 (_ ||| extras)) (ite_congr hsame (fun hb => ?_) fun _ => rfl)
    obtain ⟨hbsc, habp, hchg⟩ := hfull (beq_iff_eq.mp (hsame.mpr hb))
    rw [hbsc, habp, hchg]
  case w4 =>
    intro hfb hdiv hbsc hvco hmtld hsel hen haux hout hpw
    simp only [compose, word4, hfb, hdiv, hbsc, hvco, hmtld, hsel, hen, haux, hout, hpw]
  case w5 =>
    intro hld
    simp only [compose, word5, hld]

/-- Settles O22: the words are the encodings of their fields, which slicing gives back. -/
theorem unpackRecoversOperands : Obligations.UnpackRecoversOperands := by
  intro s t h hreg
  have hpack := exec_pack_valid h hreg
  obtain ⟨-, hint, hfrac, hmod, cp, abp, pw, ax, sel, hcp, habp, hpw, hax, hsel, hwords⟩ := pack_standard_ok.mp hpack
  obtain ⟨lcp, labp, lpw, lax, lsel⟩ := hits_lt standard_ok hcp habp hpw hax hsel
  have hunpack : unpack t.words = packedFields s.opt s.settings cp abp pw ax sel := by
    rw [hwords, compose_eq_encodeFields hint hfrac hmod lcp labp lpw lax lsel, unpack_encodeFields]
  have haddress : ∀ (k : BitVec 3) (w : Word), wordAt t.words k = some w → field w 0 3 = k :=
    fun k w hw => (pack_hasFormatOf standard_ok hpack hw).address
  rw [hunpack]
  refine ⟨?int, ?frac, ?mod, ?outdiv, rfl, ?phaseZ, ?phaseNz, ?fracNz, ?cp, ?abp, ?pw, ?ax, rfl, rfl, rfl, rfl, rfl,
    rfl, rfl, rfl, rfl, rfl, rfl, rfl, rfl, rfl, rfl, rfl, rfl, rfl, rfl, rfl, rfl, ?full, ?legacy, haddress⟩
  case int => exact toNat_setWidth_of_lt (by omega)
  case frac => exact toNat_setWidth_of_lt (by omega)
  case mod => exact toNat_setWidth_of_lt (by omega)
  case outdiv =>
    rw [Unpacked.outdiv, packedFields, toNat_ofNat_of_lt lsel, (outDivSel_eq_some_iff.mp hsel).2]
  case phaseZ => exact toNat_ite_one_zero _
  case phaseNz =>
    rw [packedFields]
    split_ifs <;> rfl
  case fracNz => exact toNat_ite_zero_one _
  case cp => rw [Unpacked.cpCurrent, packedFields, toNat_ofNat_of_lt lcp, (lookup_some.mp hcp).1]
  case abp => rw [Unpacked.abpWidth, packedFields, toNat_ofNat_of_lt labp, (lookup_some.mp habp).1]
  case pw => rw [Unpacked.outPower, packedFields, toNat_ofNat_of_lt lpw, (lookup_some.mp hpw).1, dBm]
  case ax => rw [Unpacked.auxPower, packedFields, toNat_ofNat_of_lt lax, (lookup_some.mp hax).1, dBm]
  case full =>
    intro hv
    refine ⟨if_pos hv, if_pos hv, ?_⟩
    have hidx : (packedFields s.opt s.settings cp abp pw ax sel).abpIdx = BitVec.ofNat 1 abp := if_pos hv
    rw [Unpacked.abpWidthFull, hidx, toNat_ofNat_of_lt labp, (lookup_some.mp habp).1]
  case legacy =>
    intro hv
    have hlegacy : ¬s.opt.variant = 1#1 := by rw [hv]; decide
    exact ⟨if_neg hlegacy, if_neg hlegacy, if_neg hlegacy⟩

/-- Settles O16: the check of `SET_VALID` comes first. -/
theorem packNeedsSettings : Obligations.PackNeedsSettings := by
  intro s hv
  have herr : pack Config.standard s.opt s.setValid s.settings = .error .noSettings := hv ▸ pack_not_valid _ _ _
  exact ⟨_, exec_pack_of_error herr, raise_pack_failed _ s, rfl, rfl, rfl, rfl⟩

/-- Settles O20: what the host sees after `PACK` is a function of the read Options and of the `SET` ports. -/
theorem packReadsOnlyItsOperands : Obligations.PackReadsOnlyItsOperands := by
  intro a b s t hvalid hset hopt hs ht
  have hport : settingsPort a = settingsPort b := by rw [settingsPort, settingsPort, hvalid, hset]
  have hview : view s = view t :=
    calc view s = viewAfterPack a.opt (settingsPort a) := view_of_exec_pack hs
      _ = viewAfterPack b.opt (settingsPort a) := by rw [← hopt]; exact (viewAfterPack_unread a.opt _ _ _ _ _).symm
      _ = viewAfterPack b.opt (settingsPort b) := by rw [hport]
      _ = view t := (view_of_exec_pack ht).symm
  have hwords : wordsPort s = wordsPort t := congrArg View.words hview
  exact ⟨hwords, by rw [regValid_eq_isSome, regValid_eq_isSome, hwords], congrArg View.status hview⟩

end Sys2Proof.Machine

/-! Proofs about errors (`60_exceptions.md` R220 to R239): the zero divisors of `SOLVE`, the codes that each command can
leave, and the steps that answer no next state. -/

namespace Sys2Proof.Machine

/-! ### The divisors of `SOLVE` (R226) -/

/-- The error that a plan ends in: the first divisor of the steps before step 7 that is 0, else the verdict of steps 7
to 9. Each divisor is tested in the order of the steps. -/
def Plan.fullVerdict (p : Plan) (o : Options) : Option BlockError :=
  if o.rCounter = 0 then some (.divideByZero .rCounter)
  else if p.pfd = 0 then some (.divideByZero .pfd)
  else if o.spacingHz = 0 then some (.divideByZero .channelSpacing)
  else if o.gcdEn = 1 ∧ Nat.gcd p.mod0 p.frac0 = 0 then some (.divideByZero .gcd)
  else p.verdict o

/-- The first failing check of the ten is the verdict of the plan, whichever divisors are 0. -/
theorem firstFailing_solveChecks_full {f : Hz} {o : Options} {p : Plan} (hp : p.Of f.toNat o) :
    firstFailing (solveChecks Config.standard f.toNat o) = p.fullVerdict o := by
  obtain ⟨hpfd, -, -, -, hmod0, hfrac0, -, hfrac, hb, hbsc⟩ := plan_values hp
  rw [firstFailing_solveChecks_dropLast (by decide), solveChecks_standard, hpfd, hmod0, hfrac0, hfrac, hb, hbsc]
  simp only [List.dropLast, firstFailing, Plan.fullVerdict, Plan.verdict, beq_iff_eq, Bool.and_eq_true,
    decide_eq_true_eq, bne_iff_ne, and_assoc]

/-- A verdict that names a divisor ends `SOLVE` with `DivideByZero` and that divisor's number. -/
theorem exec_solve_divideByZero {s : State} {d : Divisor}
    (h : firstFailing (solveChecks Config.standard s.freqHz.toNat s.opt) = some (.divideByZero d)) :
    ∃ t, exec .solve s = .next t ∧ SolveFailed s t ∧ t.status.reads 9 (divisorNumber d).toNat 0 0 :=
  exec_solve_failed h ⟨rfl, rfl, rfl, rfl⟩

/-! ### The codes of a command (R221, R233) -/

/-- The codes of the nine checks of `SOLVE` that can be reported; the tenth, which alone has code 5, is dead. -/
theorem solve_error_code {f : Hz} {o : Options} {e : BlockError} (h : solve Config.standard f o = .error e) :
    (errorStatus e).code ∈ ([1, 2, 3, 4, 9] : List (BitVec 4)) := by
  have hall : ∀ p ∈ (solveChecks Config.standard f.toNat o).dropLast,
      (errorStatus p.2).code ∈ ([1, 2, 3, 4, 9] : List (BitVec 4)) := by
    simp [solveChecks, errorStatus]
  exact hall _ (solve_error_mem_dropLast (by decide) h)

/-- The codes of the nine checks of `PACK`. -/
theorem pack_error_code {c : Config} {o : Options} {valid : Bool} {v : Settings} {e : BlockError}
    (h : pack c o valid v = .error e) : (errorStatus e).code ∈ ([6, 7, 8, 10] : List (BitVec 4)) := by
  have hall : ∀ p ∈ packChecks c o valid v, (errorStatus p.2).code ∈ ([6, 7, 8, 10] : List (BitVec 4)) := by
    simp [packChecks, errorStatus]
  exact hall _ (firstFailing_some (pack_error.mp h))

/-- `SOLVE` leaves the code of `OK` or that of one of its own errors. -/
theorem exec_solve_code {s t : State} (h : exec .solve s = .next t) :
    t.status.code ∈ ([0, 1, 2, 3, 4, 9] : List (BitVec 4)) := by
  obtain ⟨v, -, he⟩ | ⟨e, herr, he⟩ := execSolve_cases s
  · obtain rfl : writeOk (writeSettings v s) = t := Host.Outcome.next.inj (he.symm.trans h)
    exact List.mem_cons_self
  · obtain rfl : raise .solve e s = t := Host.Outcome.next.inj (he.symm.trans h)
    exact List.mem_cons_of_mem _ (solve_error_code herr)

/-- `PACK` leaves the code of `OK` or that of one of its own errors. -/
theorem exec_pack_code {s t : State} (h : exec .pack s = .next t) :
    t.status.code ∈ ([0, 6, 7, 8, 10] : List (BitVec 4)) := by
  obtain ⟨ws, -, he⟩ | ⟨e, herr, he⟩ := execPack_cases s
  · obtain rfl : writeOk (writeWords ws s) = t := Host.Outcome.next.inj (he.symm.trans h)
    exact List.mem_cons_self
  · obtain rfl : raise .pack e s = t := Host.Outcome.next.inj (he.symm.trans h)
    exact List.mem_cons_of_mem _ (pack_error_code herr)

/-! ### The steps that stop (R239) -/

/-- Whatever the command port holds, the command completes. -/
theorem exec_decodeCommand_next (cmd : BitVec 2) (s : State) : ∃ t, exec (decodeCommand cmd) s = .next t := by
  unfold decodeCommand
  split_ifs
  · exact ⟨s, rfl⟩
  · exact (exec_solve_writes s).imp fun _ => And.left
  · exact (exec_pack_writes s).imp fun _ => And.left
  · exact ⟨_, exec_ldset s⟩

/-- A read of a word in no format of the table is refused. -/
theorem step_read_undecodable {s : State} {w : Word} {e : DecodeError} (hrst : s.rst = 0) (hact : s.act = .read)
    (hport : wordPort s = .ok w) (hdec : decodeWord s.opt.variant w = .error e) :
    step s = .refused (.undecodable e) := by
  have hfetch : fetch s = .ok (wordBytes w) := by rw [fetch_of_read hact, hport]; rfl
  simp [step, runStep, hrst, hfetch, decode_wordBytes, hdec]

/-- Everything that a step can answer: a next state, or, at the host's read only, the fault of the word port or the
refusal of the word on it. -/
theorem step_outcome (s : State) :
    (∃ t, step s = .next t) ∨
      (s.rst = 0 ∧ s.act = .read ∧
        ((∃ f, wordPort s = .error f ∧ step s = .fault f) ∨
          ∃ w e, wordPort s = .ok w ∧ decodeWord s.opt.variant w = .error e ∧ step s = .refused (.undecodable e))) := by
  obtain hrst | hrst := BitVec.eq_zero_or_eq_one s.rst
  · cases hact : s.act with
    | command =>
      rw [step_command hrst hact]
      exact .inl (exec_decodeCommand_next s.cmd s)
    | read =>
      cases hport : wordPort s with
      | error f => exact .inr ⟨hrst, rfl, .inl ⟨f, rfl, step_read_error hrst hact hport⟩⟩
      | ok w =>
        cases hdec : decodeWord s.opt.variant w with
        | ok i => exact .inl ⟨_, step_read_ok hrst hact hport ⟨i, hdec⟩⟩
        | error e => exact .inr ⟨hrst, rfl, .inr ⟨w, e, rfl, hdec, step_read_undecodable hrst hact hport hdec⟩⟩
  · exact .inl ⟨_, runStep_reset exec hrst⟩

/-! ### The statements -/

/-- Settles O4: the first four clauses are the branches of the full verdict, the last one is
the first of O6. -/
theorem solveReportsZeroDivisor : Obligations.SolveReportsZeroDivisor := by
  intro s p hp
  have hverdict := firstFailing_solveChecks_full hp
  refine ⟨fun hr => ?rCounter, fun hr hpfd => ?pfd, fun hr hpfd hspacing => ?spacing,
    fun hr hpfd hspacing hen hgcd => ?gcd, fun hdiv hlegal hb => ?bandSelect⟩
  case rCounter =>
    rw [Plan.fullVerdict, if_pos hr] at hverdict
    exact exec_solve_divideByZero hverdict
  case pfd =>
    rw [Plan.fullVerdict, if_neg hr, if_pos hpfd] at hverdict
    exact exec_solve_divideByZero hverdict
  case spacing =>
    rw [Plan.fullVerdict, if_neg hr, if_neg hpfd, if_pos hspacing] at hverdict
    exact exec_solve_divideByZero hverdict
  case gcd =>
    rw [Plan.fullVerdict, if_neg hr, if_neg hpfd, if_neg hspacing, if_pos ⟨hen, hgcd⟩] at hverdict
    exact exec_solve_divideByZero hverdict
  case bandSelect => exact (solveRejectsFastBandSelectClock s p hp hdiv hlegal).1 hb

/-- Settles O36, row by row. -/
theorem codesOfEachCommand : Obligations.CodesOfEachCommand := by
  intro s t
  refine ⟨fun h => ?nop, fun h => ?ldset, exec_solve_code, exec_pack_code, fun hrst h => ?reset⟩
  case nop =>
    obtain rfl : s = t := Host.Outcome.next.inj h
    rfl
  case ldset =>
    obtain rfl := Host.Outcome.next.inj ((exec_ldset s).symm.trans h)
    rfl
  case reset =>
    obtain rfl : resetBlock s = t := Host.Outcome.next.inj ((runStep_reset exec hrst).symm.trans h)
    rfl

/-- Settles O39: only a read leaves the first case of a step's outcomes; the word port has two faults, and under the
invariant every word on it decodes. -/
theorem onlyAReadCanStop : Obligations.OnlyAReadCanStop := by
  intro s
  obtain ⟨t, hnext⟩ | ⟨hrst, hact, ⟨f, hport, hfault⟩ | ⟨w, e, hport, hdec, hrefused⟩⟩ := step_outcome s
  · exact ⟨fun _ => ⟨t, hnext⟩, by simp [hnext], by simp [hnext]⟩
  · refine ⟨by simp [hrst, hact], fun f' h => ?_, by simp [hfault]⟩
    obtain rfl : f = f' := Host.Outcome.fault.inj (hfault.symm.trans h)
    exact (memRead_error.mp hport).imp And.left And.left
  · refine ⟨by simp [hrst, hact], by simp [hrefused], fun hs => ?_⟩
    obtain ⟨hreg, hw⟩ := memRead_ok.mp hport
    obtain ⟨i, hi⟩ := hs.decodes hreg hw s.opt.variant
    exact absurd (hdec.symm.trans hi) (by simp)

end Sys2Proof.Machine

/-! Proofs about reset (`70_reset_and_hazards.md` R250 to R253): what a step with `rst` asserted answers. -/

namespace Sys2Proof.Machine

/-- The status that reset leaves: code `OK`, and nothing reported (`70_reset_and_hazards.md` R250). -/
theorem resetBlock_status_reads (s : State) : (resetBlock s).status.reads 0 0 0 0 := ⟨rfl, rfl, rfl, rfl⟩

/-! ### The statements -/

/-- Settles O30: the step is the reset of the block (R251). The flags, `STATUS` and the host's side are those of
`resetBlock` (R250), and no step writes a port (R253). -/
theorem resetWinsOverTheCommand : Obligations.ResetWinsOverTheCommand := by
  intro s hrst
  have hstep : step s = .next (resetBlock s) := runStep_reset exec hrst
  obtain ⟨hports, hrstKept⟩ := noStepWritesAPort s (resetBlock s) hstep
  exact ⟨resetBlock s, hstep, resetBlock_setValid s, resetBlock_regValid s, resetBlock_status_reads s, hports, hrstKept,
    resetBlock_act s, resetBlock_hostWord s⟩

end Sys2Proof.Machine
